-- ==== Sys2Proof/Word.lean ====
section
/-!
DEFINITION. The word types of the slice and its constants of build and geometry (00_scope.md R1, R8; 04_thallus.md R110).
-/

namespace Sys2Proof

/-- A register word (00_scope.md R9). -/
abbrev Word := BitVec 32

/-- A 64-byte granule, the unit that carries a spore (00_scope.md, glossary). -/
abbrev GranuleBits := BitVec 512

/-- The 128 data bytes of a line, byte 0 lowest (00_scope.md R8). -/
abbrev LineBits := BitVec 1024

/-- One accumulator lane image of 16 bytes (08_accumulation.md R224). -/
abbrev LaneBits := BitVec 128

/-- The two builds of the slice (00_scope.md R1). -/
inductive Build where
  /-- RX2-L. -/
  | L
  /-- RX2-S. -/
  | S
deriving DecidableEq, Repr

/-- A line with the spore marks of its two granules (01_architecture.md R27, 13_errors_poison_scrub.md R354). -/
structure Line where
  /-- The 128 data bytes. -/
  data : LineBits
  /-- Spore of granule 0 (bytes 0-63). -/
  sp0 : Bool
  /-- Spore of granule 1 (bytes 64-127). -/
  sp1 : Bool
deriving DecidableEq, Repr

/-- The line of 128 zero bytes without spores (04_thallus.md R500). -/
def Line.zero : Line := ⟨0, false, false⟩

end Sys2Proof
end

