-- ==== Sys2Proof/Config.lean ====
section
/-!
DEFINITION. What the manual leaves open: the free values. Each is opaque: nothing in Lean can evaluate it or prove a value of it
(notes/assumptions/5.md).
-/

namespace Sys2Proof.Config

/-- Contents of a thallus chunk (16 data bytes and 16 check bits) that power-on, a switched-off tier or an unfilled sorus row
leaves undefined (04_thallus.md R132): `gen` counts the times the tier lost its contents, `cell` names the chunk. -/
opaque undefinedChunk : (gen cell : Nat) → BitVec 144

/-- Bytes delivered under a spore that the resolution of two uncorrectable copies of a mirror line sets (04_thallus.md R140): the manual
states the spore and not the bytes. A function of the bytes read of copies A and B, so that every read resolves the same way. -/
opaque lostMirror : (a b : BitVec 1024) → BitVec 1024

/-- A free value where the manual states no result: `n` is the state's counter of free values drawn. -/
opaque freeValue : (n : Nat) → BitVec 1024

end Sys2Proof.Config
end

