-- ==== Sys2Proof/Syntax.lean ====
section
/-!
DEFINITION. The commands of the slice: one constructor of Instr per row of opcode_table.json, with the row's operands. `t` is the
sclk at which the command happens (notes/assumptions/1.md).
-/

namespace Sys2Proof

/-- One C-net payload flit: its 32 data bytes and its SPORE sideband bit (02_fabric_interface.md R42). -/
structure CData where
  /-- The 256 data lanes, byte 0 lowest. -/
  data : BitVec 256
  /-- SPORE of the flit. -/
  spore : Bool
deriving DecidableEq, Repr

/-- A C-net flit on the lanes (02_fabric_interface.md R42). The CRC of the sideband word is held by its difference from the one R35 gives the
flit, so that 0 is a CRC that matches; `cnetSide` in Machine/Fabric.lean is the word on the lanes. -/
structure CFlit where
  /-- The 256 data lanes, byte 0 lowest. -/
  data : BitVec 256
  /-- Sideband bits 15:0. -/
  low : BitVec 16
  /-- Sideband bits 31:16 as received, XOR the CRC of R35. -/
  crcDiff : BitVec 16
deriving DecidableEq, Repr

/-- VALID. -/
def CFlit.valid (f : CFlit) : Bool := f.low.getLsbD 0
/-- HEAD. -/
def CFlit.isHead (f : CFlit) : Bool := f.low.getLsbD 1
/-- TAIL. -/
def CFlit.isTail (f : CFlit) : Bool := f.low.getLsbD 2
/-- VC. -/
def CFlit.vc (f : CFlit) : BitVec 3 := f.low.extractLsb' 3 3
/-- SPORE. -/
def CFlit.spore (f : CFlit) : Bool := f.low.getLsbD 6
/-- CRV. -/
def CFlit.crv (f : CFlit) : Bool := f.low.getLsbD 8
/-- CRVC. -/
def CFlit.crvc (f : CFlit) : BitVec 3 := f.low.extractLsb' 9 3
/-- A reserved sideband bit is not 0 (R75). -/
def CFlit.rsvd (f : CFlit) : Bool := f.low.getLsbD 7 || f.low.extractLsb' 12 4 != 0

/-- A C-net packet as it arrives: its header flit and its payload flits, all on one virtual channel (02_fabric_interface.md R42, R43,
R50). `t` of the command is the sclk at which the header flit reaches the input lanes. -/
structure CPacket where
  /-- The header flit. -/
  first : CFlit
  /-- The payload flits in order. -/
  rest : List CFlit
deriving DecidableEq, Repr

/-- The header of R50. -/
def CPacket.head (p : CPacket) : BitVec 256 := p.first.data
/-- The virtual channel. -/
def CPacket.vc (p : CPacket) : BitVec 3 := p.first.vc
/-- The payload: data and spore of each flit. -/
def CPacket.payload (p : CPacket) : List CData := p.rest.map fun f => ⟨f.data, f.spore⟩
/-- All flits. -/
def CPacket.flits (p : CPacket) : List CFlit := p.first :: p.rest
/-- A reserved sideband bit of some flit is nonzero (R75). -/
def CPacket.sideRsvd (p : CPacket) : Bool := p.flits.any (·.rsvd)
/-- The CRC of some flit does not match R35. -/
def CPacket.crcBad (p : CPacket) : Bool := p.flits.any fun f => f.crcDiff != 0
/-- VALID on every flit, HEAD on the first alone, TAIL on the last alone, and one virtual channel (R42, R43). -/
def CPacket.framed (p : CPacket) : Bool :=
  p.flits.all (fun f => f.valid && f.vc == p.vc) && p.first.isHead && p.rest.all (fun f => !f.isHead) &&
    (p.flits.reverse.head?.map (·.isTail)) == some true && p.flits.reverse.tail.all fun f => !f.isTail

/-- Sideband bits 15:0 of a flit that returns no credit. -/
def sideLow (head tail : Bool) (vc : Nat) (spore : Bool) : BitVec 16 :=
  1#16 ||| (if head then 2#16 else 0) ||| (if tail then 4#16 else 0) ||| (BitVec.ofNat 16 (vc % 8) <<< 3) ||| (if spore then 0x40#16 else 0)

/-- A packet in good form with this header and payload. -/
def mkPacket (vc : Nat) (head : BitVec 256) (payload : List CData) : CPacket :=
  { first := ⟨head, sideLow true payload.isEmpty vc false, 0⟩
    rest := payload.zipIdx.map fun e => ⟨e.1.data, sideLow false (e.2 + 1 == payload.length) vc e.1.spore, 0⟩ }

/-- The packet with another header; whether its CRC matches stays as it is. -/
def CPacket.withHead (p : CPacket) (h : BitVec 256) : CPacket := { p with first := { p.first with data := h } }

/-- What the 1,096 B-net input lanes carry in one sclk, before the lane map: the lanes of the data, of the sideband word of R33, CRC included,
and the spare lanes (14_sparing_rebuild.md R384). -/
structure BFlit where
  /-- Lanes 0-1,023, byte 0 on lanes 7:0. -/
  data : BitVec 1024
  /-- Lanes 1,024-1,087. -/
  side : BitVec 64
  /-- The spare lanes, bit n for spare n. -/
  spare : BitVec 8
deriving DecidableEq, Repr

/-- What Torif does on an error record (14_sparing_rebuild.md R392). -/
inductive RetireAct where
  /-- Remap a row of a tier through a free CAM entry and sorus row. -/
  | row (tier : Nat)
  /-- Retire a physical engine and commit a map without it. -/
  | engine (eng : Nat)
  /-- Retire the directory way of `DIR_CE_LAST`. -/
  | dirWay
  /-- Take the cache way of `CCH_CE_LAST` out of use. -/
  | cacheWay
  /-- Map the suspect ingress lane onto a spare. -/
  | lane
  /-- Map an egress lane, whose failure the tile's router reports, onto a spare. -/
  | egressLane (lane : Nat)
  /-- Declare a tier failed. -/
  | tier (tier : Nat)
  /-- Start a rebuild of a position. -/
  | rebuild (pos : Nat)
deriving DecidableEq, Repr

/-- The commands: one constructor per row of opcode_table.json. -/
inductive Instr where
  /-- NOP (R88): A NOP request passes every stage and is answered RSP_COMP OK at sclk 8 with no effect. -/
  | nop (t : Nat) (p : CPacket)
  /-- RD (R332): A RD request reads data from the home copy, the backing store or an owner and is answered DAT_COMP without granting coherence state. -/
  | rd (t : Nat) (p : CPacket)
  /-- RD_SHARED (R332): A core's RD_SHARED obtains a shared copy through the directory, by forward or from the home copy. -/
  | rdShared (t : Nat) (p : CPacket)
  /-- RD_UNIQUE (R332): A core's RD_UNIQUE invalidates other copies and grants the requester the only copy in state E. -/
  | rdUnique (t : Nat) (p : CPacket)
  /-- RD_NOALLOC (R332): A RD_NOALLOC returns the latest data without allocating a cache way and without granting state. -/
  | rdNoalloc (t : Nat) (p : CPacket)
  /-- WR (R332): A partial write snoops L1 copies and merges its bytes into the cache line or directly into the thallus. -/
  | wr (t : Nat) (p : CPacket)
  /-- WR_LINE (R332): A full-line write snoops L1 copies and replaces the line in the cache or the thallus. -/
  | wrLine (t : Nat) (p : CPacket)
  /-- WB_DIRTY (R335): A core's dirty writeback is applied at once against the directory entry without entering the blocked queue. -/
  | wbDirty (t : Nat) (p : CPacket)
  /-- WB_CLEAN (R335): A core's clean writeback releases its directory record without blocking. -/
  | wbClean (t : Nat) (p : CPacket)
  /-- AT_SWAP (R278): Atomic swap stores operand A and returns the old value. -/
  | atSwap (t : Nat) (p : CPacket)
  /-- AT_CAS (R278): Atomic compare-and-swap stores B if old equals A and returns the old value. -/
  | atCas (t : Nat) (p : CPacket)
  /-- AT_ADD_I (R278): Atomic integer add modulo the width, returning the old value. -/
  | atAddI (t : Nat) (p : CPacket)
  /-- AT_ADD_F32 (R279): Atomic FP32 add rounded once to nearest even, returning the old value. -/
  | atAddF32 (t : Nat) (p : CPacket)
  /-- AT_ADD_BF16X2 (R279): Atomic add of two independent BF16 halves, returning the old value. -/
  | atAddBf16x2 (t : Nat) (p : CPacket)
  /-- AT_MIN_I (R278): Atomic signed or unsigned integer minimum, returning the old value. -/
  | atMinI (t : Nat) (p : CPacket)
  /-- AT_MAX_I (R278): Atomic signed or unsigned integer maximum, returning the old value. -/
  | atMaxI (t : Nat) (p : CPacket)
  /-- AT_MIN_F (R279): Atomic FP32 minimumNumber, returning the old value. -/
  | atMinF (t : Nat) (p : CPacket)
  /-- AT_MAX_F (R279): Atomic FP32 maximumNumber, returning the old value. -/
  | atMaxF (t : Nat) (p : CPacket)
  /-- AT_AND (R278): Atomic bitwise AND, returning the old value. -/
  | atAnd (t : Nat) (p : CPacket)
  /-- AT_OR (R278): Atomic bitwise OR, returning the old value. -/
  | atOr (t : Nat) (p : CPacket)
  /-- AT_XOR (R278): Atomic bitwise XOR, returning the old value. -/
  | atXor (t : Nat) (p : CPacket)
  /-- AT_INC_BOUND (R278): Atomic bounded increment that never passes the bound, returning the old value. -/
  | atIncBound (t : Nat) (p : CPacket)
  /-- AT_VADD_F32 (R279): Atomic add of 16 FP32 elements into a 64-byte granule, answered RSP_COMP. -/
  | atVaddF32 (t : Nat) (p : CPacket)
  /-- AT_VACC (R246): An AT_VACC request is checked and accepted to add a 64-byte vector into lanes of an open accumulation group. -/
  | atVacc (t : Nat) (p : CPacket)
  /-- MT_CLEAN_PA (R310): Clean by address recalls dirty L1 data and writes the line back, keeping copies. -/
  | mtCleanPa (t : Nat) (p : CPacket)
  /-- MT_INV_PA (R310): Invalidate by address discards the line at the home and in every L1. -/
  | mtInvPa (t : Nat) (p : CPacket)
  /-- MT_CLINV_PA (R310): Clean and invalidate by address recalls, writes back and invalidates the line. -/
  | mtClinvPa (t : Nat) (p : CPacket)
  /-- MT_ZERO_PA (R311): Zero by address makes the line 128 zero bytes without spores, invalidating L1 copies. -/
  | mtZeroPa (t : Nat) (p : CPacket)
  /-- MT_CLEAN_SW (R312): Set/way clean writes back the named way if dirty, without snoops. -/
  | mtCleanSw (t : Nat) (p : CPacket)
  /-- MT_INV_SW (R312): Set/way invalidate discards the named way, acting as clean-invalidate on secure lines for S = 0. -/
  | mtInvSw (t : Nat) (p : CPacket)
  /-- MT_CLINV_SW (R312): Set/way clean and invalidate writes back the named way if dirty and invalidates it. -/
  | mtClinvSw (t : Nat) (p : CPacket)
  /-- ST_PULL (R196): A ST_PULL opens a pull context and streams decoded rows from a region to the requester. -/
  | stPull (t : Nat) (p : CPacket)
  /-- ST_PULL_ABORT (R199): A ST_PULL with ABORT = 1 stops the named open pull and completes it with ABORTED = 1. -/
  | stPullAbort (t : Nat) (p : CPacket)
  /-- ST_PUSH (R201): A ST_PUSH writes 128 bytes unchanged as one full-line thallus write and answers after the write. -/
  | stPush (t : Nat) (p : CPacket)
  /-- REG_RD (R9): A register read request returns the 32-bit value of a register after the access checks. -/
  | regRd (t : Nat) (p : CPacket)
  /-- REG_WR (R12): A write to a register that has no behaviour of its own stores fields per their types after value and state checks. -/
  | regWr (t : Nat) (p : CPacket)
  /-- INT_RECEIVED (R56): An INT arriving at a slice is answered NACK_UNSUP and logged UNSUP_OP. -/
  | intReceived (t : Nat) (p : CPacket)
  /-- EVT_RECEIVED (R56): An EVT arriving at a slice is answered NACK_UNSUP and logged UNSUP_OP. -/
  | evtReceived (t : Nat) (p : CPacket)
  /-- FWD_PACKET_RX (R58): Any packet arriving on the FWD channel is dropped without response and logged MALFORMED. -/
  | fwdPacketRx (t : Nat) (p : CPacket)
  /-- RSP_COMP_RX (R63): An RSP_COMP arriving for a slice transaction, such as a host writeback or an INT, completes it or is sunk as stray. -/
  | rspCompRx (t : Nat) (p : CPacket)
  /-- DAT_COMP_RX (R304): A DAT_COMP from the host agent fills a FILL way and serves the requests that waited on it. -/
  | datCompRx (t : Nat) (p : CPacket)
  /-- RSP_ACK_RX (R330): A requester's RSP_ACK closes its RD_SHARED or RD_UNIQUE transaction when all forwards are answered. -/
  | rspAckRx (t : Nat) (p : CPacket)
  /-- RSP_FWD_DONE_RX (R332): A sharer's RSP_FWD_DONE answers a forward at the home. -/
  | rspFwdDoneRx (t : Nat) (p : CPacket)
  /-- RSP_FWD_MISS_WB_RX (R336): A sharer's RSP_FWD_MISS_WB answers a forward or snoop that crossed its writeback. -/
  | rspFwdMissWbRx (t : Nat) (p : CPacket)
  /-- RSP_INV_ACK_RX (R332): A sharer's RSP_INV_ACK answers a snoop at the home. -/
  | rspInvAckRx (t : Nat) (p : CPacket)
  /-- DAT_SNP_RX (R332): A DAT_SNP merges recalled data into the home copy as DIRTY and answers the forward or snoop. -/
  | datSnpRx (t : Nat) (p : CPacket)
  /-- CNET_CREDIT_RX (R45): A credit returned on CRV for a virtual channel lets the slice send further flits. -/
  | cnetCreditRx (t : Nat) (vc : Nat)
  /-- PACKET_SEND (R499): At a packet boundary the slice chooses and sends the next whole output packet for which it holds credits. -/
  | packetSend (t : Nat)
  /-- B_FLIT_RX (R37): A valid B-net flit arriving at the input is CRC-checked and matched to an ingress frond or dropped. -/
  | bFlitRx (t : Nat) (f : BFlit)
  /-- B_LATE (R39): A beat not received by c(k) is replaced by a zero beat with both spores. -/
  | bLate (t : Nat) (entry beat : Nat)
  /-- TICK (R72): An accepted TICK sets frame sclk 0, switches a pending program, applies tick-time commits and runs the frame. -/
  | tick (t : Nat) (frame : BitVec 16)
  /-- TICK_LOST (R72): A TICK outside the window or none by its end is a frame fault and sets a new reference. -/
  | tickLost (t : Nat)
  /-- SELF_TIMED_FRAME (R130): Without ticks the controller times a frame start itself and runs precharge and refresh rounds. -/
  | selfTimedFrame (t : Nat)
  /-- BAR_RELEASE (R179): A received BAR_RELEASE satisfies a waiting BARRIER or is logged BAR_STRAY. -/
  | barRelease (t : Nat) (id : BitVec 12)
  /-- QUENCH (R73): A QUENCH stops frond starts, REQ credits and new REQ grants, and idles egress by q + 64. -/
  | quench (t : Nat)
  /-- QUENCH_RELEASE (R74): A quench release restores REQ credits, own requests and held requests. -/
  | quenchRelease (t : Nat)
  /-- WAKE_GNT (R430): A WAKE_GNT for this tile grants wake tokens to the governor. -/
  | wakeGnt (t : Nat) (tile : BitVec 8) (count : BitVec 4)
  /-- FAULT_RX (R372): A FAULT from another tile is counted and recorded. -/
  | faultRx (t : Nat) (tile : BitVec 8) (cls : BitVec 4)
  /-- FAULT_REPEAT (R77): In fail-stop the FAULT message is resent every 4,096 sclk. -/
  | faultRepeat (t : Nat)
  /-- INT_RETRY (R67): An INT that was NACKed or timed out is resent 1,024 sclk later, up to four attempts. -/
  | intRetry (t : Nat) (page : Nat)
  /-- ERR_MASK_WRITE (R21): A write to ERR_MASK that makes ERR_PENDING rise sends an INT.
  `n` is the number of the page. -/
  | errMaskWrite (t : Nat) (p : CPacket) (n : Nat)
  /-- ABI_SEL_WRITE (R6): A write to SLC.ABI_SEL changes the behaviour level and discards both frame memory halves. -/
  | abiSelWrite (t : Nat) (p : CPacket)
  /-- FUSED_OFF_REQUEST (R17): The port shell of a fused-off slice answers every packet with zero data, OK or NACK_RANGE. -/
  | fusedOffRequest (t : Nat) (p : CPacket)
  /-- SHELL_REQUEST (R423): While LOGIC is off the AON port shell serves a few registers and answers others NACK_PWR. -/
  | shellRequest (t : Nat) (p : CPacket)
  /-- WIDE_LOW_READ (R11): A read of the low word of a wide register copies the high word into its holding register.
  `n` is 0 to 7 for CNTn and 8 for CYCLE. -/
  | wideLowRead (t : Nat) (p : CPacket) (n : Nat)
  /-- RGN_COMMIT_ARM (R101): Writing COMMIT.ARM starts the region table commit check for a tick commit. -/
  | rgnCommitArm (t : Nat) (p : CPacket)
  /-- RGN_COMMIT_CHECK_END (R102): The region commit check ends, passing or refusing with a fail code. -/
  | rgnCommitCheckEnd (t : Nat)
  /-- RGN_COMMIT_NOW (R103): Writing COMMIT.NOW checks and activates the shadow table 70 sclk later without a tick. -/
  | rgnCommitNow (t : Nat) (p : CPacket)
  /-- RGN_COMMIT_CANCEL (R104): Writing COMMIT.CANCEL cancels a pending region commit. -/
  | rgnCommitCancel (t : Nat) (p : CPacket)
  /-- RGN_SHADOW_WRITE (R100): A write of a shadow region entry is refused while a commit is pending or for non-secure writers of secure entries.
  `n` is the word 0-127 from SHD_BOUND0 on: 2k for SHD_BOUNDk, 2k + 1 for SHD_ATTRk. -/
  | rgnShadowWrite (t : Nat) (p : CPacket) (n : Nat)
  /-- THL_READ_COMPLETE (R126): A thallus line read delivers its line, reconstructed and spored as needed, and feeds buckets and follow-ups. -/
  | thlReadComplete (t : Nat)
  /-- REFRESH_ROUND (R129): A refresh round refreshes the counter row in all banks of awake tiers at the frame start. -/
  | refreshRound (t : Nat)
  /-- REF_LAG (R131): A pass reaching 7/8 of t_RET starts catch-up refresh rounds. -/
  | refLag (t : Nat)
  /-- REF_MISS (R131): A pass reaching t_RET with rows left puts the slice into fail-stop. -/
  | refMiss (t : Nat)
  /-- GUARD_PRECHARGE (R118): At frame sclk P - 64 all banks are precharged and ungranted post-fault AT_VACC are refused. -/
  | guardPrecharge (t : Nat)
  /-- TEMP_UPDATE (R143): The stack temperature is updated every 1,024 sclk, logging OVERTEMP on a rise over 105 C. -/
  | tempUpdate (t : Nat) (deg : BitVec 8)
  /-- THL_INIT_START (R500): The initialization pass starts once T0-T8 are awake or failed after a cold or refresh-class reset. -/
  | thlInitStart (t : Nat)
  /-- THL_INIT_END (R500): The initialization pass ends and THL_READY is set. -/
  | thlInitEnd (t : Nat)
  /-- TIER_FAIL_WRITE (R133): Firmware writing a FAILED bit declares a tier failed and switches it off. -/
  | tierFailWrite (t : Nat) (p : CPacket)
  /-- LOAD_OPEN (R167): LOAD_CTL.OPEN zeroes and opens the inactive frame memory half. -/
  | loadOpen (t : Nat) (p : CPacket)
  /-- LOAD_VALIDATE (R167): LOAD_CTL.VALIDATE closes the open half and starts validation. -/
  | loadValidate (t : Nat) (p : CPacket)
  /-- LOAD_ABORT (R167): LOAD_CTL.ABORT discards the open or validating half. -/
  | loadAbort (t : Nat) (p : CPacket)
  /-- LOAD_DATA_WRITE (R167): A LOAD_DATA write stores one word of the open half and advances LOAD_PTR. -/
  | loadDataWrite (t : Nat) (p : CPacket)
  /-- LOAD_DATA_READ (R168): A LOAD_DATA read returns a word of the selected half and advances LOAD_PTR. -/
  | loadDataRead (t : Nat) (p : CPacket)
  /-- VALIDATION_END (R169): Validation ends, accepting the program as PENDING or refusing it with a code and index. -/
  | validationEnd (t : Nat)
  /-- TICK_PERIOD_WRITE (R181): A change of TICK_PERIOD in IDLE or STOPPED discards both programs. -/
  | tickPeriodWrite (t : Nat) (p : CPacket)
  /-- UNSCHED_MIN_WRITE (R181): A change of UNSCHED_MIN in IDLE or STOPPED discards both programs. -/
  | unschedMinWrite (t : Nat) (p : CPacket)
  /-- ENERGY_CAP_WRITE (R181): A change of ENERGY_CAP in IDLE or STOPPED discards both programs. -/
  | energyCapWrite (t : Nat) (p : CPacket)
  /-- REFRESH_RESERVE_WRITE (R182): A REFRESH_RESERVE write is accepted only if held programs still fit and takes effect at the next frame. -/
  | refreshReserveWrite (t : Nat) (p : CPacket)
  /-- EGRESS (R158): An EGRESS frond reads stored lines, decodes them and presents flits at exact sclk. -/
  | egress (t : Nat) (entry : Nat)
  /-- INGRESS_STORE (R191): An INGRESS_STORE frond consumes beats and writes each as a full line. -/
  | ingressStore (t : Nat) (entry : Nat)
  /-- INGRESS_ACC (R192): An INGRESS_ACC frond consumes beats and adds their elements into group lanes. -/
  | ingressAcc (t : Nat) (entry : Nat)
  /-- OPEN_GROUP (R226): An OPEN_GROUP frond clears or preloads the lanes of a group. -/
  | openGroup (t : Nat) (entry : Nat)
  /-- DISCARD (R237): CLOSE_GROUP with DISCARD closes the group without reading or writing. -/
  | discard (t : Nat) (entry : Nat)
  /-- STORE_ROUND (R238): CLOSE_GROUP with STORE_ROUND rounds lanes to the output format and writes lines. -/
  | storeRound (t : Nat) (entry : Nat)
  /-- STORE_STATS (R241): CLOSE_GROUP with STORE_STATS stores sums or mean and variance per element. -/
  | storeStats (t : Nat) (entry : Nat)
  /-- CLOSE_FORWARD (R237): CLOSE_GROUP with FORWARD closes a group whose lanes were already forwarded. -/
  | closeForward (t : Nat) (entry : Nat)
  /-- APPLY_UPDATE (R290): CLOSE_GROUP with APPLY_UPDATE runs the optimizer step on weights and state lines in place. -/
  | applyUpdate (t : Nat) (entry : Nat)
  /-- FORWARD_SEND (R244): A FORWARD frond with DIR = 0 sends group lanes as wide partials. -/
  | forwardSend (t : Nat) (entry : Nat)
  /-- FORWARD_RECEIVE (R245): A FORWARD frond with DIR = 1 adds received wide partials into lanes. -/
  | forwardReceive (t : Nat) (entry : Nat)
  /-- WAKE_TIER (R174): A WAKE_TIER frond queues wakes of the named sleeping tiers. -/
  | wakeTier (t : Nat) (entry : Nat)
  /-- SLEEP_TIER (R174): A SLEEP_TIER frond puts the named tiers into self-refresh. -/
  | sleepTier (t : Nat) (entry : Nat)
  /-- BARRIER (R179): A BARRIER frond sends BAR_ARRIVE and may wait for a release. -/
  | barrier (t : Nat) (entry : Nat)
  /-- BAR_TIMEOUT (R179): A barrier release not arrived by START + WAIT is a frame fault. -/
  | barTimeout (t : Nat) (entry : Nat)
  /-- FENCE (R180): A FENCE frond orders unscheduled traffic, records FENCE_LAST and may send an EVT. -/
  | fence (t : Nat) (entry : Nat)
  /-- VACC_GRANT (R247): An accepted AT_VACC is granted all its bank slots at once and added, then answered. -/
  | vaccGrant (t : Nat)
  /-- ACC_INIT_DONE (R250): Lane zeroing after reset or ENG power-up completes and READY is set. -/
  | accInitDone (t : Nat)
  /-- ACC_CTL_WRITE (R252): A write changing ACC SAT settings applies at the next frame or at once. -/
  | accCtlWrite (t : Nat) (p : CPacket)
  /-- ACC_CNT_CLR (R252): ACC.CTL.CNT_CLR clears the accumulator counters. -/
  | accCntClr (t : Nat) (p : CPacket)
  /-- ACC_DBG_READ (R251): In debug mode a read of DBG_DATA0 reads a lane and holds its other words. -/
  | accDbgRead (t : Nat) (p : CPacket)
  /-- DEC_CTL_WRITE (R218): A write changing DEC SAT settings applies at the next frame or at once. -/
  | decCtlWrite (t : Nat) (p : CPacket)
  /-- DEC_CNT_CLR (R222): DEC.CTL.CNT_CLR clears the decode counters. -/
  | decCntClr (t : Nat) (p : CPacket)
  /-- PULL_PACKET_SEND (R197): Decoded pull data is sent as a DAT_STREAM packet, the last followed by the pull's RSP_COMP. -/
  | pullPacketSend (t : Nat) (ctx : Nat)
  /-- ARB_DECISION (R456): Each sclk the arbiter grants up to two fitting unscheduled bursts by forcing and priority. -/
  | arbDecision (t : Nat)
  /-- GRANT_TMO (R459): A head not granted within TMO_WAIT is withdrawn and answered NACK_TMO. -/
  | grantTmo (t : Nat) (req : Nat)
  /-- ARB_COMMIT (R460): ARB.COMMIT copies all shadow priority and limit registers into the active copies. -/
  | arbCommit (t : Nat) (p : CPacket)
  /-- ARB_CNT_CLR (R463): ARB.CTL.CNT_CLR clears the arbiter counters. -/
  | arbCntClr (t : Nat) (p : CPacket)
  /-- SCRUB_READ (R358): In an idle slot the scrubber reads the line at its lap index and follows up errors. -/
  | scrubRead (t : Nat)
  /-- PATROL_READ (R360): The SRAM patrol reads one cache tag set and directory set at its interval. -/
  | patrolRead (t : Nat)
  /-- LEAK_TICK (R356): A bucket's leak timer expires and its level drops by one. -/
  | leakTick (t : Nat) (dom : Nat)
  /-- WAIT_TMO (R364): A request waiting for a way, buffer line or engine queue slot for TMO_WAIT is answered NACK_TMO. -/
  | waitTmo (t : Nat) (slot : Nat)
  /-- WDOG_EXP (R365): The SMC watchdog reaches its limit and resets the SMC. -/
  | wdogExp (t : Nat)
  /-- WDOG_KICK (R365): Writing WDOG_CTL.KICK restarts the watchdog count. -/
  | wdogKick (t : Nat) (p : CPacket)
  /-- STALL (R368): A request table entry without progress for the stall limit forces fail-stop. -/
  | stall (t : Nat) (slot : Nat)
  /-- FS_FORCE (R371): A secure write of RAS.FS_CTL.FORCE enters fail-stop class FORCED. -/
  | fsForce (t : Nat) (p : CPacket)
  /-- RAS_CNT_CLR (R374): RAS.CTL.CNT_CLR clears the RAS counters. -/
  | rasCntClr (t : Nat) (p : CPacket)
  /-- BKT_CLR (R374): RAS.CTL.BKT_CLR clears every bucket level and restarts every leak timer. -/
  | bktClr (t : Nat) (p : CPacket)
  /-- SCRUB_RESTART (R359): Writing SCRUB_CTL.RESTART sets the scrub index and LAP_CUR to 0. -/
  | scrubRestart (t : Nat) (p : CPacket)
  /-- DOM_CFG_WRITE (R356): A write of DOM_CFGd sets threshold and leak and restarts the leak timer.
  `n` is the domain d. -/
  | domCfgWrite (t : Nat) (p : CPacket) (n : Nat)
  /-- INJ_ARM (R373): In debug mode writing RAS.INJ with ARM plants one error in a domain. -/
  | injArm (t : Nat) (p : CPacket)
  /-- MAP_COMMIT_ARM (R272): Writing MAP_COMMIT.ARM checks the shadow engine map and arms it for a tick. -/
  | mapCommitArm (t : Nat) (p : CPacket)
  /-- MAP_COMMIT_NOW (R273): Writing MAP_COMMIT.NOW activates a checked engine map 16 sclk later. -/
  | mapCommitNow (t : Nat) (p : CPacket)
  /-- MAP_COMMIT_CANCEL (R272): Writing MAP_COMMIT.CANCEL cancels a pending engine map. -/
  | mapCommitCancel (t : Nat) (p : CPacket)
  /-- ATOMIC_EXEC (R283): An engine starts the next queued atomic in a claim-free sclk of its bank. -/
  | atomicExec (t : Nat) (pos : Nat)
  /-- BUCKET_STEAL (R284): An idle position takes a bucket and its queued atomics from the most loaded position. -/
  | bucketSteal (t : Nat) (pos : Nat)
  /-- OPT_SLOT_WRITE (R288): A step slot register write is held while running and applied at frame sclk 0, otherwise at once.
  `n` is 9 times the slot plus the word, in the order of the slot's registers. -/
  | optSlotWrite (t : Nat) (p : CPacket) (n : Nat)
  /-- UPD_CNT_CLR (R294): UPD.CTL.CNT_CLR clears the engine counters. -/
  | updCntClr (t : Nat) (p : CPacket)
  /-- ALLOC_WAIT_RETRY (R303): A request waiting at the home for a cache way or writeback buffer line retries and proceeds when room appears. -/
  | allocWaitRetry (t : Nat) (slot : Nat)
  /-- FILL_TMO (R305): A host fill not answered in time returns its way to INVALID and NACKs waiting requests. -/
  | fillTmo (t : Nat) (set way : Nat)
  /-- WB_STALL (R306): A failed host writeback is resent 1,024 sclk later until it completes. -/
  | wbStall (t : Nat) (buf : Nat)
  /-- CACHE_INIT_DONE (R316): Tag invalidation after reset completes and CACHE_READY is set. -/
  | cacheInitDone (t : Nat)
  /-- HOST_AGENT_WRITE (R318): A write of CCH.HOST_AGENT is refused while fills or writebacks are outstanding. -/
  | hostAgentWrite (t : Nat) (p : CPacket)
  /-- CCH_CNT_CLR (R318): CCH.CTL.CNT_CLR clears the cache counters. -/
  | cchCntClr (t : Nat) (p : CPacket)
  /-- CCH_DBG_READ (R318): In debug mode a read of DBG_TAG_LO reads a tag and MRU bit and holds the upper word. -/
  | cchDbgRead (t : Nat) (p : CPacket)
  /-- BLOCKED_START (R331): When a line's transaction closes, the oldest blocked request for it starts. -/
  | blockedStart (t : Nat) (slot : Nat)
  /-- BLOCK_TMO (R331): A blocked request reaching BLOCK_LIMIT is removed and answered NACK_TMO. -/
  | blockTmo (t : Nat) (slot : Nat)
  /-- FWD_TMO (R340): An unanswered forward, snoop or awaited RSP_ACK times out, poisoning the home copy where data was awaited. -/
  | fwdTmo (t : Nat) (slot : Nat)
  /-- DIR_INIT_DONE (R342): Directory clearing after reset completes and READY is set. -/
  | dirInitDone (t : Nat)
  /-- DIR_WAY_RETIRE (R344): Writing WAY_RETIRED starts a sweep that evicts the way's entries. -/
  | dirWayRetire (t : Nat) (p : CPacket)
  /-- DIR_SWEEP_END (R344): The retirement sweep ends and the next physical way replaces the retired one. -/
  | dirSweepEnd (t : Nat)
  /-- DIR_CNT_CLR (R345): DIR.CTL.CNT_CLR clears the directory counters. -/
  | dirCntClr (t : Nat) (p : CPacket)
  /-- DIR_DBG_READ (R345): In debug mode a read of DIR.DBG_TAG_LO reads an entry and holds its other words. -/
  | dirDbgRead (t : Nat) (p : CPacket)
  /-- SPR_COMMIT_ARM (R378): Writing SPR.COMMIT.ARM starts the check of all shadow CAMs and the lane map. -/
  | sprCommitArm (t : Nat) (p : CPacket)
  /-- SPR_CHECK_END (R379): The sparing commit check ends, passing or refusing with a fail code. -/
  | sprCheckEnd (t : Nat)
  /-- SPR_COMMIT_NOW (R380): Writing SPR.COMMIT.NOW checks and activates CAMs and lane map 664 sclk later. -/
  | sprCommitNow (t : Nat) (p : CPacket)
  /-- SPR_COMMIT_CANCEL (R380): Writing SPR.COMMIT.CANCEL cancels a pending sparing commit. -/
  | sprCommitCancel (t : Nat) (p : CPacket)
  /-- SPR_SHADOW_WRITE (R378): A write of a shadow CAM, lane entry or CAM_SEL is refused while a commit is pending.
  `n` is 0-63 for CAM_SHDn, 64-71 for BLANE_SHD0-7 and 72 for CAM_SEL. -/
  | sprShadowWrite (t : Nat) (p : CPacket) (n : Nat)
  /-- REBUILD_START (R386): REBUILD_CTL.START begins a rebuild of a lacking position and wakes T9. -/
  | rebuildStart (t : Nat) (p : CPacket)
  /-- REBUILD_PAUSE (R389): REBUILD_CTL.PAUSE stops further rebuild steps. -/
  | rebuildPause (t : Nat) (p : CPacket)
  /-- REBUILD_RESUME (R389): REBUILD_CTL.RESUME continues rebuild steps from the front. -/
  | rebuildResume (t : Nat) (p : CPacket)
  /-- REBUILD_ABORT (R389): REBUILD_CTL.ABORT returns the rebuild to IDLE with T9 serving nothing. -/
  | rebuildAbort (t : Nat) (p : CPacket)
  /-- TORIF_RETIRE (R392): Torif firmware acts on an error record by remapping, retiring or starting a rebuild. -/
  | torifRetire (t : Nat) (act : RetireAct)
  /-- DOORBELL_RING (R398): Writing DOORBELL.RING powers up, resumes or notifies the SMC. -/
  | doorbellRing (t : Nat) (p : CPacket) (secure : Bool)
  /-- IN_DATA_WRITE (R400): An IN_DATA write pushes a header or payload word into the inbound queue. -/
  | inDataWrite (t : Nat) (p : CPacket) (secure : Bool)
  /-- OUT_DATA_READ (R402): An OUT_DATA read pops the oldest word of a complete outbound message. -/
  | outDataRead (t : Nat) (p : CPacket) (secure : Bool)
  /-- OUT_ACK (R404): Writing ACK.OUT_ACK acknowledges the last popped outbound message. -/
  | outAck (t : Nat) (p : CPacket) (secure : Bool)
  /-- IN_ABORT (R410): Writing ACK.IN_ABORT discards the partial inbound message. -/
  | inAbort (t : Nat) (p : CPacket) (secure : Bool)
  /-- LOCK_READ (R408): In mode 1 a LOCK read acquires or reports the channel lock. -/
  | lockRead (t : Nat) (p : CPacket) (secure : Bool)
  /-- LOCK_WRITE (R408): An owner's LOCK write releases the lock; another's is logged LOCK_FOREIGN. -/
  | lockWrite (t : Nat) (p : CPacket) (secure : Bool)
  /-- LOCK_EXPIRED (R409): An idle lock owner past LOCK_LIMIT loses the lock and its partial message. -/
  | lockExpired (t : Nat) (secure : Bool)
  /-- MBX_CTL_WRITE (R411): A write changing the mailbox MODE is refused while a message, lock or unacked output is in progress. -/
  | mbxCtlWrite (t : Nat) (p : CPacket) (secure : Bool)
  /-- SMC_POP_INBOUND (R401): The SMC pops a complete inbound message with its source. -/
  | smcPopInbound (t : Nat) (secure : Bool)
  /-- SMC_PUSH_OUTBOUND (R402): The SMC pushes an outbound message and the slice notifies the NOTIFY destination. -/
  | smcPushOutbound (t : Nat) (secure : Bool) (words : List Word)
  /-- SMC_ACK_INBOUND (R404): Torif acknowledges a popped inbound message and an EVT goes to its source. -/
  | smcAckInbound (t : Nat) (secure : Bool)
  /-- VERSION (R418): Torif VERSION agrees a protocol and reports firmware and behaviour levels. -/
  | version (t : Nat) (secure : Bool)
  /-- PING (R417): Torif PING echoes the request word. -/
  | ping (t : Nat) (secure : Bool)
  /-- FRAME_COPY (R419): Torif FRAME_COPY loads a frame program from the thallus and validates it. -/
  | frameCopy (t : Nat) (secure : Bool)
  /-- ENG_DOMAIN_OFF (R433): Writing DOMAIN_CTL.ENG = 0 switches the ENG domain off, losing lanes and atomics. -/
  | engDomainOff (t : Nat) (p : CPacket)
  /-- ENG_DOMAIN_ON (R433): Writing DOMAIN_CTL.ENG = 1 powers ENG up and initializes the lanes. -/
  | engDomainOn (t : Nat) (p : CPacket)
  /-- SMC_DOMAIN_OFF (R434): Writing DOMAIN_CTL.SMC = 0 switches the SMC off when the mailboxes are idle. -/
  | smcDomainOff (t : Nat) (p : CPacket)
  /-- SMC_DOMAIN_ON (R434): Writing DOMAIN_CTL.SMC = 1 powers the SMC up and boots Torif. -/
  | smcDomainOn (t : Nat) (p : CPacket)
  /-- DOMAIN_SWITCH_DONE (R434): An ENG or SMC domain transition ends and the domain status settles. -/
  | domainSwitchDone (t : Nat)
  /-- TIER_WAKE_CMD (R451): A TIER_CMD wake queues the named tiers for wake. -/
  | tierWakeCmd (t : Nat) (p : CPacket)
  /-- TIER_SLEEP_CMD (R451): A TIER_CMD sleep sends the named tiers into self-refresh. -/
  | tierSleepCmd (t : Nat) (p : CPacket)
  /-- TIER_OFF_CMD (R451): A TIER_CMD off turns T9 off. -/
  | tierOffCmd (t : Nat) (p : CPacket)
  /-- WAKE_START (R429): The governor starts the wake of the queue head when spacing and tokens allow, requesting tokens as needed. -/
  | wakeStart (t : Nat)
  /-- TIER_WAKE_DONE (R426): A tier's wake ends and it becomes AWAKE. -/
  | tierWakeDone (t : Nat) (tier : Nat)
  /-- WAKE_TMO (R431): A wake not ended within WAKE_TMO declares the tier failed. -/
  | wakeTmo (t : Nat) (tier : Nat)
  /-- TIER_SLEEP_DONE (R427): A tier's sleep entry ends and it is in SLEEP. -/
  | tierSleepDone (t : Nat) (tier : Nat)
  /-- WAKE_REQ_RESEND (R430): A WAKE_REQ not granted within the resend interval is sent again, logging GNT_SLOW at the limit. -/
  | wakeReqResend (t : Nat)
  /-- RETAIN_ENTER (R436): A secure write of RETAIN.ENTER sleeps the tiers and switches the logic domains off. -/
  | retainEnter (t : Nat) (p : CPacket)
  /-- RETAIN_EXIT (R437): A secure write of RETAIN.EXIT powers LOGIC up and runs the warm reset sequence. -/
  | retainExit (t : Nat) (p : CPacket)
  /-- PORST_N_ASSERT (R442): Assertion of PORST_N cold-resets the slice and switches every tier off. -/
  | porstNAssert (t : Nat)
  /-- PORST_N_RELEASE (R443): Release of PORST_N reads the fuse map and runs the cold release sequence. -/
  | porstNRelease (t : Nat) (good : BitVec 256)
  /-- WRST_N_ASSERT (R442): Assertion of WRST_N warm-resets LOGIC, ENG and SMC. -/
  | wrstNAssert (t : Nat)
  /-- WRST_N_RELEASE (R443): Release of WRST_N runs the warm release sequence. -/
  | wrstNRelease (t : Nat)
  /-- RST_CTL_COLD (R441): A secure write of RST_CTL.COLD orders a cold reset keeping the good-slice map. -/
  | rstCtlCold (t : Nat) (p : CPacket)
  /-- RST_CTL_WARM (R441): A secure write of RST_CTL.WARM orders a warm reset. -/
  | rstCtlWarm (t : Nat) (p : CPacket)
  /-- RST_CTL_FRAME (R444): Writing RST_CTL.FRAME resets the frame engine, ingress buffer and accumulators. -/
  | rstCtlFrame (t : Nat) (p : CPacket)
  /-- RST_CTL_SMC (R445): Writing RST_CTL.SMC resets the SMC alone. -/
  | rstCtlSmc (t : Nat) (p : CPacket)
  /-- ORDERED_RESET_RELEASE (R441): A register-ordered reset is released after 16 sclk and its release sequence starts. -/
  | orderedResetRelease (t : Nat)
  /-- PMU_CNT_CLR (R469): PMU.CTL.CNT_CLR sets all nine counters to 0. -/
  | pmuCntClr (t : Nat) (p : CPacket)
  /-- PMU_CNT_WRITE (R469): A write of CNTn_LO or CNTn_HI presets a disabled counter.
  `n` is 2k for CNTk_LO and 2k + 1 for CNTk_HI. -/
  | pmuCntWrite (t : Nat) (p : CPacket) (n : Nat)
  /-- PMU_CFG_WRITE (R469): A CNTn_CFG write selects event, enable and ring filter from the next sclk.
  `n` is the counter. -/
  | pmuCfgWrite (t : Nat) (p : CPacket) (n : Nat)
  /-- CNT_OVF (R468): A counter wraps, logging overflow and optionally freezing all counters. -/
  | cntOvf (t : Nat) (n : Nat)
  /-- DBG_MODE_WRITE (R474): A secure write of DBG.CTL.MODE enters or leaves debug mode. -/
  | dbgModeWrite (t : Nat) (p : CPacket)
  /-- DBG_HALT (R475): Writing DBG.CTL.HALT sets a pending halt at the next tick. -/
  | dbgHalt (t : Nat) (p : CPacket)
  /-- DBG_RESUME (R475): Writing DBG.CTL.RESUME clears a halt or a pending halt. -/
  | dbgResume (t : Nat) (p : CPacket)
  /-- DBG_STEP (R475): Writing DBG.CTL.STEP runs exactly one frame and halts again. -/
  | dbgStep (t : Nat) (p : CPacket)
  /-- TRC_CLR (R480): Writing TRC_CTL.CLR empties the trace buffer and clears FULL and TRC_LOST. -/
  | trcClr (t : Nat) (p : CPacket)
  /-- TRC_DATA0_READ (R481): A read of TRC_DATA0 reads the record at OFS and holds its upper words. -/
  | trcData0Read (t : Nat) (p : CPacket)
  /-- TRC_DATA3_READ (R481): A read of TRC_DATA3 returns the held word and advances OFS. -/
  | trcData3Read (t : Nat) (p : CPacket)
  /-- EVT_SEL_WRITE (R487): A write of EVT.SELn holds the line two sclk and switches it to a new source.
  `n` is the line. -/
  | evtSelWrite (t : Nat) (p : CPacket) (n : Nat)
  /-- SNET_MESSAGE_DISCARD (R69): An S-net beat pair that fails framing or CHK, or carries a reserved or outbound-only type or value, is discarded and logged SNET_ERR, and after a LOGIC reset the receiver first regains its footing on a beat with START = 0. -/
  | snetMessageDiscard (t : Nat) (beat0 beat1 : BitVec 16)
  /-- SNET_MESSAGE_SEND (R71): When the S-net output is free, the slice starts the next waiting outgoing message, choosing FAULT before BAR_ARRIVE before WAKE_REQ. -/
  | snetMessageSend (t : Nat)
deriving DecidableEq, Repr

end Sys2Proof
end

