-- ==== Sys2Proof/Decode.lean ====
section
/-!
DEFINITION. The command that a word spells by the bits of opcode_table.json. The table gives no row any bits: the slice takes commands, not
instruction words, so no word spells one.
-/

namespace Sys2Proof

/-- The command that a word of `nbits` bits spells, for the rows that give bits: none. -/
def decodeTableWord (_nbits _w : Nat) : Option Instr := none

end Sys2Proof
end

