-- ==== Sys2Proof/Machine/Bits.lean ====
section
/-!
DEFINITION. Bit fields as numbers, and sparse lists sorted by key in one canonical form.
-/

namespace Sys2Proof.Machine

/-- Bits [hi:lo] of a word as a number (00_scope.md, notation). -/
def fld {n : Nat} (w : BitVec n) (hi lo : Nat) : Nat := (w.toNat >>> lo) % 2 ^ (hi + 1 - lo)

/-- Bit i of a word. -/
def bit {n : Nat} (w : BitVec n) (i : Nat) : Bool := w.getLsbD i

/-- A Bool as 0 or 1. -/
def b2n (b : Bool) : Nat := if b then 1 else 0

/-- The word with bits [hi:lo] replaced by v. -/
def setFld {n : Nat} (w : BitVec n) (hi lo v : Nat) : BitVec n :=
  let k := 2 ^ (hi + 1 - lo)
  BitVec.ofNat n (w.toNat - fld w hi lo * 2 ^ lo + (v % k) * 2 ^ lo)

/-- A word with only bits [hi:lo] = v. -/
def mkFld (hi lo v : Nat) : Nat := (v % 2 ^ (hi + 1 - lo)) * 2 ^ lo

/-- Saturating increment of the field [hi:lo]. -/
def satInc {n : Nat} (w : BitVec n) (hi lo : Nat) : BitVec n :=
  setFld w hi lo (min (fld w hi lo + 1) (2 ^ (hi + 1 - lo) - 1))

/-- Lowest set bit of a number below 2^n, if any. -/
def lowestBit (n x : Nat) : Option Nat := (List.range n).find? fun i => x.testBit i

/-- Number of set bits of a number below 2^n. -/
def popCount (n x : Nat) : Nat := (List.range n).countP fun i => x.testBit i

/-- ceil(a / b) for b > 0. -/
def cdiv (a b : Nat) : Nat := (a + b - 1) / b

/-- Value stored at key k. -/
def smGet {α : Type} : List (Nat × α) → Nat → Option α
  | [], _ => none
  | (k', v) :: m, k => if k' = k then some v else smGet m k

/-- Value at key k, or d. -/
def smGetD {α : Type} (m : List (Nat × α)) (k : Nat) (d : α) : α := (smGet m k).getD d

/-- Store v at key k, keeping the keys rising. -/
def smPut {α : Type} : List (Nat × α) → Nat → α → List (Nat × α)
  | [], k, v => [(k, v)]
  | (k', v') :: m, k, v =>
    if k < k' then (k, v) :: (k', v') :: m
    else if k = k' then (k, v) :: m
    else (k', v') :: smPut m k v

/-- Remove key k. -/
def smDel {α : Type} : List (Nat × α) → Nat → List (Nat × α)
  | [], _ => []
  | (k', v') :: m, k => if k' = k then smDel m k else (k', v') :: smDel m k

/-- Store v at key k where an unlisted key reads as d: the canonical form lists no entry equal to d. -/
def smSet {α : Type} [DecidableEq α] (m : List (Nat × α)) (k : Nat) (v d : α) : List (Nat × α) :=
  if v = d then smDel m k else smPut m k v

/-- The keys rise strictly. -/
def smSorted {α : Type} : List (Nat × α) → Bool
  | [] => true
  | [_] => true
  | (a, _) :: (b, v) :: m => decide (a < b) && smSorted ((b, v) :: m)

/-- The canonical form: rising keys, no entry equal to what an unlisted key reads as. -/
def smWf {α : Type} [DecidableEq α] (d : Nat → α) (m : List (Nat × α)) : Bool :=
  smSorted m && m.all fun e => decide (e.2 ≠ d e.1)

/-- Insert into a sorted list, before equals. -/
def insertBy {α : Type} (le : α → α → Bool) (x : α) : List α → List α
  | [] => [x]
  | y :: l => if le x y then x :: y :: l else y :: insertBy le x l

/-- Stable sort of a list by `le`. -/
def sortBy {α : Type} (le : α → α → Bool) : List α → List α
  | [] => []
  | x :: l => insertBy le x (sortBy le l)

/-- Element i of a list, or d. -/
def nth {α : Type} (l : List α) (i : Nat) (d : α) : α := (l[i]?).getD d

/-- The numbers of the ten tiers with that of tier n replaced. -/
def setTen (l : List Nat) (n v : Nat) : List Nat := (List.range 10).map fun i => if i = n then v else nth l i 0

end Sys2Proof.Machine
end

