-- ==== Sys2Proof/Machine/RegMap.lean ====
section
/-!
DEFINITION. The register index: keys, reset values, field masks and value checks of every register (19_register_pages.md R491-R496 and the
register tables of each chapter).
-/

namespace Sys2Proof.Machine

/-- Key of the register at an offset of a page. -/
def rk (page ofs : Nat) : Nat := page * 4096 + ofs

/-- BLK_END of a page (R491); 0 for a reserved page. -/
def blkEnd (b : Build) : Nat → Nat
  | 0x00 => 0x054 | 0x01 => 0x088 | 0x02 => 0x500 | 0x03 => 0x060 | 0x04 => 0x094 | 0x05 => 0x088 | 0x06 => 0x5E4
  | 0x07 => (match b with | .L => 0x200 | .S => 0x104)
  | 0x08 => 0x090
  | 0x09 => (match b with | .L => 0x230 | .S => 0x1C8)
  | 0x0A => 0x300 | 0x0B => 0x06C | 0x0C => 0x064 | 0x0D => 0x064 | 0x0E => 0x168 | 0x0F => 0x0FC | 0x10 => 0x070 | 0x11 => 0x090
  | _ => 0

/-- Accumulator banks NB (05_frames_and_fronds.md R157). -/
def nBanks : Build → Nat | .L => 16 | .S => 4
/-- Lanes of the slice (00_scope.md R1). -/
def nLanes : Build → Nat | .L => 16384 | .S => 4096
/-- Groups of the slice. -/
def nGroups : Build → Nat | .L => 64 | .S => 1
/-- Physical engines. -/
def nEngines : Build → Nat | .L => 18 | .S => 5
/-- RAS domains (13_errors_poison_scrub.md R355). -/
def nDomains : Build → Nat | .L => 38 | .S => 25

/-- Whether ofs is one of n words from base at the given stride. -/
def inArr (ofs base stride n : Nat) : Bool :=
  decide (base ≤ ofs) && decide (ofs < base + stride * n) && decide ((ofs - base) % stride = 0)

/-- Reset values of the step slot registers (R496, page UPD from 0x200). -/
def optReset (ofs : Nat) : Nat :=
  match (ofs - 0x200) % 0x40 with
  | 0x00 => 1
  | 0x0C => 0x3F800000
  | 0x10 => 0x3F666666
  | 0x1C => 0x3F666666
  | 0x14 => 0x3F7FBE77
  | 0x20 => 0x3F7FBE77
  | 0x18 => 0x3727C5AC
  | _ => 0

/-- Reset configuration of arbiter requester n (17_arbiter_unscheduled.md R461). -/
def arbReset : Nat → Nat
  | 0 => 0x00040007 | 1 => 0x00020004 | 2 => 0x00020005 | 3 => 0x00020004 | 4 => 0x00040003 | 5 => 0x00040003
  | 6 => 0x00080002 | 7 => 0x00100001 | 8 => 0x00100001 | _ => 0

/-- Reset values of the block registers (R496). -/
def blkReset (b : Build) (page ofs : Nat) : Nat :=
  match page with
  | 0x00 => (match ofs with | 0x048 => 2 | 0x050 => 1 | _ => 0)
  | 0x01 => (match ofs with | 0x048 => 0xC80 | 0x04C => 0xC0 | 0x050 => 8 | 0x054 => 0x100 | 0x07C => 0x1FFFF | _ => 0)
  | 0x02 => (match ofs with | 0x048 => 1 | _ => 0)
  | 0x03 => (match ofs with | 0x040 => 0x4400908A | 0x044 => 0x0A601018 | 0x04C => 0x2010 | _ => 0)
  | 0x04 => (match ofs with
      | 0x044 => 0x4880200C | 0x04C => 0xFFF | 0x050 => 0xFFF | 0x054 => 0xFFF | 0x058 => 0xFFF | 0x060 => 9 | _ => 0)
  | 0x05 => (match ofs with | 0x044 => 0x20931000 | 0x048 => 0xFF00 | 0x04C => 0x6400 | 0x050 => 0x12C0 | _ => 0)
  | 0x06 =>
    if inArr ofs 0x06C 4 8 then
      (match b with | .L => if (ofs / 4) % 2 = 1 then 0x76543210 else 0xFEDCBA98 | .S => 0x32103210)
    else if decide (0x200 ≤ ofs) && decide ((ofs - 0x200) % 0x40 ≤ 0x20) && decide (ofs < 0x600) then optReset ofs
    else (match ofs with
      | 0x040 => 0x11
      | 0x044 => (match b with | .L => 0x08101250 | .S => 0x08100524)
      | 0x050 => (match b with | .L => 0x0A418820 | .S => 0x00018820)
      | 0x05C => (match b with | .L => 0x0A418820 | .S => 0x00018820)
      | 0x054 => (match b with | .L => 0x16A4A0E6 | .S => 0)
      | 0x060 => (match b with | .L => 0x16A4A0E6 | .S => 0)
      | 0x058 => (match b with | .L => 0x0007B9AC | .S => 0)
      | 0x064 => (match b with | .L => 0x0007B9AC | .S => 0)
      | _ => 0)
  | 0x07 => (match ofs with
      | 0x040 => 1 | 0x044 => (match b with | .L => 0x40104000 | .S => 0x01041000) | 0x048 => 4 | 0x04C => 1 | _ => 0)
  | 0x08 => (match ofs with | 0x040 => 1 | 0x044 => 1 | 0x048 => 0x1FFFF | 0x04C => 0x1F | _ => 0)
  | 0x09 =>
    if inArr ofs 0x100 8 (nDomains b) then 0x00100040
    else (match ofs with
      | 0x044 => (match b with | .L => 0x1026 | .S => 0x1019)
      | 0x064 => 0x7D00 | 0x068 => 0x3E80 | 0x06C => 0x4E200 | 0x070 => 1 | 0x074 => 0x401 | 0x084 => 0x10000 | 0x088 => 3 | _ => 0)
  | 0x0A => (match ofs with | 0x040 => 0x4440A | 0x064 => 0x38214 | _ => 0)
  | 0x0B => (match ofs with
      | 0x040 => 3 | 0x044 => 7 | 0x050 => 2 | 0x054 => 0x3E80 | 0x058 => 0x804 | _ => 0)
  | 0x0C => (match ofs with | 0x044 => 0x100000 | 0x054 => 8 | _ => 0)
  | 0x0D => (match ofs with | 0x044 => 0x100000 | 0x054 => 8 | _ => 0)
  | 0x0E =>
    if inArr ofs 0x080 4 10 then arbReset ((ofs - 0x080) / 4)
    else if inArr ofs 0x0C0 4 10 then arbReset ((ofs - 0x0C0) / 4)
    else (match ofs with | 0x044 => 0x7A | _ => 0)
  | 0x0F => (match ofs with | 0x040 => 1 | 0x044 => 0x308 | _ => 0)
  | 0x10 => (match ofs with | 0x050 => 0xF80 | _ => 0)
  | 0x11 => (match ofs with | 0x040 => 0x10 | _ => 0)
  | _ => 0

/-- What an unlisted key of the register file reads as: the register's reset value (R492, R496). -/
def regReset (b : Build) (key : Nat) : Word :=
  let page := key / 4096
  let ofs := key % 4096
  BitVec.ofNat 32
    (if page > 0x11 then 0
     else match ofs with
      | 0x000 => (0xA500 + page) * 0x10000 + 0x0200
      | 0x004 => (match b with | .L => 0x00300000 | .S => 0x00310000) + blkEnd b page
      | 0x014 => 0xFFFFFFFF
      | _ => if ofs < 0x040 then 0 else blkReset b page ofs)

/-- Header bits a write stores (R16). -/
def hdrRw : Nat → Nat
  | 0x008 => 1 | 0x014 => 0xFFFFFFFF | 0x01C => 0x03FFFF03 | _ => 0

/-- Bits of a block register that a write stores as they are (type RW), registers with a rule of their own included. -/
def blkRw (b : Build) (page ofs : Nat) : Nat :=
  match page with
  | 0x00 => (match ofs with | 0x048 => 0xF | _ => 0)
  | 0x01 => (match ofs with
      | 0x040 => 3 | 0x048 => 0x1FFFF | 0x04C => 0xFFFF | 0x050 => 0x3F | 0x054 => 0x3FF | 0x058 => 8 | 0x05C => 0x3FFF | _ => 0)
  | 0x02 =>
    if inArr ofs 0x100 8 64 then 0xFFFF7FFF
    else if inArr ofs 0x104 8 64 then 0x1F0FFF1F
    else (match ofs with | 0x048 => 0xF | _ => 0)
  | 0x03 => (match ofs with | 0x04C => 0x3F3F | _ => 0)
  | 0x04 => (match ofs with
      | 0x04C => 0xFFF | 0x050 => 0xFFF | 0x054 => 0xFFF | 0x058 => 0xFFF | 0x05C => 0x800003FF | 0x060 => 0xF
      | 0x088 => 0xF1FF | _ => 0)
  | 0x05 => (match ofs with | 0x04C => 0xFFFFFF | 0x050 => 0xFFFFFF | 0x074 => 0xF1FF | _ => 0)
  | 0x06 =>
    if decide (0x200 ≤ ofs) && decide ((ofs - 0x200) % 0x40 ≤ 0x20) && decide (ofs < 0x600) then 0xFFFFFFFF
    else (match ofs with
      | 0x040 => 0x3D
      | 0x050 => (match b with | .L => 0x3FFFFFFF | .S => 0xFFFFF)
      | 0x054 => (match b with | .L => 0x3FFFFFFF | .S => 0)
      | 0x058 => (match b with | .L => 0xFFFFF | .S => 0)
      | _ => 0)
  | 0x07 => (match ofs with
      | 0x040 => 3 | 0x04C => 0x1F
      | 0x050 => (match b with | .L => 0xFFFFFFFF | .S => 1)
      | 0x054 => (match b with | .L => 0xFFFFFFFF | .S => 0)
      | 0x070 => (match b with | .L => 0x3FFF | .S => 0xFFF)
      | _ => 0)
  | 0x08 => (match ofs with | 0x040 => 3 | _ => 0)
  | 0x09 =>
    if inArr ofs 0x100 8 (nDomains b) then 0x1FFFFF
    else (match ofs with
      | 0x064 => 0xFFFFFF | 0x068 => 0xFFFFFF | 0x06C => 0xFFFFFF | 0x070 => 1 | 0x074 => 0xFF1 | 0x084 => 0xFFFFFFFF
      | 0x088 => 0x1FF | 0x08C => 0x7F | _ => 0)
  | 0x0A =>
    if inArr ofs 0x094 4 8 then 0x87FF87FF
    else if inArr ofs 0x100 4 64 then 0x8001FFFF
    else (match ofs with | 0x04C => 0xF | 0x054 => 0xFFFF00F0 | 0x064 => 0x3FFFF | _ => 0)
  | 0x0B => (match ofs with | 0x040 => 3 | 0x050 => 0xF | 0x054 => 0xFFFFFF | 0x058 => 0xFFFF | _ => 0)
  | 0x0C => (match ofs with | 0x044 => 0xFFFF01 | 0x048 => 0x03FF0003 | _ => 0)
  | 0x0D => (match ofs with | 0x044 => 0xFFFF01 | 0x048 => 0x03FF0003 | _ => 0)
  | 0x0E => if inArr ofs 0x080 4 9 then 0xFFFF07 else 0
  | 0x0F =>
    if inArr ofs 0x080 16 8 then 0x1FFF
    else (match ofs with | 0x040 => 5 | 0x048 => 0x1FFF | _ => 0)
  | 0x10 => (match ofs with | 0x040 => 1 | 0x048 => 0xFF0F | 0x04C => 0x3FB | 0x050 => 0xFFF | 0x058 => 0x7FF | _ => 0)
  | 0x11 =>
    if inArr ofs 0x050 4 16 then 0xFFFF
    else (match ofs with | 0x044 => 0xFFFF | _ => 0)
  | _ => 0

/-- Bits of a block register that a write of 1 clears one by one (type W1C). -/
def blkW1c (b : Build) (page ofs : Nat) : Nat :=
  match page with
  | 0x02 => (match ofs with | 0x044 => 0xC | _ => 0)
  | 0x06 => (match ofs with | 0x048 => 0xC | _ => 0)
  | 0x07 => if inArr ofs 0x100 4 (nGroups b) then 0x3F0 else 0
  | 0x09 =>
    if inArr ofs 0x104 8 (nDomains b) then 0x80000000
    else (match ofs with | 0x04C => 0x80000000 | _ => 0)
  | 0x0A => if inArr ofs 0x06C 4 10 then 0x80000000
    else (match ofs with | 0x048 => 0xC | _ => 0)
  | 0x0C => (match ofs with | 0x054 => 0xC00 | _ => 0)
  | 0x0D => (match ofs with | 0x054 => 0xC00 | _ => 0)
  | 0x0F => (match ofs with | 0x040 => 8 | _ => 0)
  | _ => 0

/-- Bits a write stores. -/
def rwMask (b : Build) (page ofs : Nat) : Nat := if ofs < 0x040 then hdrRw ofs else blkRw b page ofs

/-- Bits a write of 1 clears. -/
def w1cMask (b : Build) (page ofs : Nat) : Nat :=
  if ofs < 0x040 then (match ofs with | 0x010 => 0xFFFFFFFF | 0x018 => 0x80000000 | _ => 0) else blkW1c b page ofs

/-- The value check of R497 for registers whose fields have a stated range: a refused value is answered `NACK_RSVD`. -/
def valueOk (b : Build) (page ofs : Nat) (d : Word) : Bool :=
  match page with
  | 0x00 => (match ofs with | 0x048 => fld d 3 0 == 1 || fld d 3 0 == 2 | _ => true)
  | 0x01 => (match ofs with
      | 0x048 => decide (1600 ≤ fld d 16 0) && decide (fld d 16 0 ≤ 102400)
      | 0x04C => decide (fld d 15 0 ≠ 0) && decide (fld d 15 0 % 192 = 0)
      | 0x050 => decide (8 ≤ fld d 5 0) && decide (fld d 5 0 ≤ 56)
      | 0x054 => decide (1 ≤ fld d 9 0) && decide (fld d 9 0 ≤ 512)
      | 0x058 => bit d 2 || !(bit d 0 && bit d 1)
      | 0x05C => decide (fld d 13 0 ≤ 8192)
      | _ => true)
  | 0x04 => (match ofs with
      | 0x060 => decide (1 ≤ fld d 3 1) && decide (fld d 3 1 ≤ 4)
      | 0x088 => decide (fld d 15 12 ≤ 11)
      | _ => true)
  | 0x05 => (match ofs with
      | 0x04C => decide (1024 ≤ fld d 23 0)
      | 0x050 => decide (256 ≤ fld d 23 0)
      | 0x074 => decide (fld d 15 12 ≤ 8)
      | _ => true)
  | 0x06 => (match ofs with
      | 0x040 => decide (1 ≤ fld d 5 2) && decide (fld d 5 2 ≤ 8)
      | _ => true)
  | 0x09 =>
    if inArr ofs 0x100 8 (nDomains b) then decide (fld d 20 16 ≤ 24)
    else (match ofs with
      | 0x064 => decide (4096 ≤ fld d 23 0)
      | 0x068 => decide (256 ≤ fld d 23 0)
      | 0x06C => decide (16000 ≤ fld d 23 0)
      | 0x074 => decide (fld d 11 4 ≠ 0)
      | 0x088 => decide (fld d 8 1 ≠ 0)
      | 0x08C => decide (fld d 5 0 < nDomains b)
      | _ => true)
  | 0x0A => (match ofs with
      | 0x04C => decide (fld d 3 0 ≤ 9)
      | 0x054 => decide (fld d 7 4 ≤ 8)
      | _ => true)
  | 0x0B => (match ofs with
      | 0x048 => decide (fld d 13 12 ≠ 0) && decide (fld d 9 0 ≠ 0) && !(fld d 13 12 == 3 && fld d 8 0 != 0)
      | 0x050 => decide (1 ≤ fld d 3 0) && decide (fld d 3 0 ≤ 10)
      | 0x054 => decide (8192 ≤ fld d 23 0)
      | 0x058 => decide (fld d 7 0 ≠ 0)
      | _ => true)
  | 0x0C => (match ofs with | 0x048 => decide (fld d 1 0 ≠ 3) | _ => true)
  | 0x0D => (match ofs with | 0x048 => decide (fld d 1 0 ≠ 3) | _ => true)
  | 0x0E => !(inArr ofs 0x080 4 9) || (decide (fld d 2 0 ≠ 0) && decide (64 ≤ fld d 23 8))
  | 0x10 => (match ofs with | 0x058 => decide (fld d 10 0 ≤ 1023) | _ => true)
  | _ => true

/-- A register of the AON domain: a warm reset keeps it (19 R493, R496; 16 R440). The CAMs, lane maps and mailbox AON registers have
fields of their own. -/
def isAon (key : Nat) : Bool :=
  let page := key / 4096
  let ofs := key % 4096
  match page with
  | 0x00 => ofs == 0x050
  | 0x03 => ofs == 0x048
  | 0x05 => ofs == 0x054
  | 0x06 => ofs == 0x05C || ofs == 0x060 || ofs == 0x064 || ofs == 0x068
  | 0x09 => ofs == 0x054 || ofs == 0x058 || ofs == 0x05C
  | 0x0B => true
  | 0x0C => ofs == 0x044 || ofs == 0x048
  | 0x0D => ofs == 0x044 || ofs == 0x048
  | _ => false

end Sys2Proof.Machine
end

