-- ==== Sys2Proof/Machine/State.lean ====
section
/-!
DEFINITION. The state of the slice as plain data: every register, queue, buffer, counter, mode and pin the manual gives it, and the queue
of waiting commands. Registers with no live field of their own lie in the register file `regs`, keyed by page * 4096 + offset; an
unlisted key reads as its reset value. Sparse stores are lists sorted by key, in one canonical form (Machine/Bits.lean).
-/

namespace Sys2Proof.Machine

/-- Why the machine stops. -/
inductive Fault where
  /-- A command names an object the slice does not have, such as tier 10 or request table entry 64. Raised by the meanings that take an
  index; safe: the hardware has no such object. -/
  | noSuchObject (what : String) (index : Nat)
deriving DecidableEq, Repr

/-- Why a command has no meaning in the model. -/
inductive Refusal where
  /-- The command's meaning is not written yet. Raised by the arms of Dispatch.lean only; safe. -/
  | notModelled (mnemonic : String)
deriving DecidableEq, Repr

/-- Boundary straps and fuses (16_power_clocks_reset.md R446; 00_scope.md R1, R17). -/
structure Straps where
  /-- Build parameter BUILD. -/
  build : Build
  /-- CHIP_ID. -/
  chip : Nat
  /-- TILE_ID. -/
  tile : Nat
  /-- WAKE_TOKEN_EN pin. -/
  tokenEn : Bool
  /-- The slice is fused off: its own tile bit of the good-slice map was 0 (R443). -/
  fused : Bool
  /-- The good-slice map, bit b for tile b (03_addressing_regions.md R83). -/
  good : BitVec 256
deriving DecidableEq, Repr

/-- Which reset (16 R440), lowest rank first. -/
inductive ResetKind where
  | smc | frame | warm | cold
deriving DecidableEq, Repr

/-- What starts in the sclk in which the response to a write leaves: the count of a reset (16 R441), or retention (16 R436). -/
inductive Order where
  | reset (k : ResetKind) | retain
deriving DecidableEq, Repr

/-- A packet of the slice waiting for the C-net output (02_fabric_interface.md R499). -/
structure OutPkt where
  /-- Virtual channel. -/
  vc : Nat
  /-- Header flit. -/
  head : BitVec 256
  /-- Payload flits. -/
  payload : List CData
  /-- The sclk in which R66 or its rule lets its header leave. -/
  readyAt : Nat
  /-- Number of the pull context a DAT_STREAM or its completion belongs to. -/
  pull : Option Nat
  /-- OPCODE of the request it answers; 0 for any other packet. -/
  op : Nat := 0
  /-- What the write it answers has ordered: the sclk in which it leaves starts it (16 R436, R441). -/
  order : Option Order := none
  /-- It answers a request that keeps its place in the request table until the answer leaves (R48, R54; 12_coherence.md R330). -/
  entry : Bool := false
deriving DecidableEq, Repr

/-- Where an entry of the request table stands. -/
inductive Phase where
  /-- Held at stage 12 by a quench (17_arbiter_unscheduled.md R462). -/
  | held
  /-- Waits for or has a thallus access. -/
  | thallus
  /-- Waits since `since` for a cache way (11_cache.md R303). -/
  | waitWay (since : Nat)
  /-- Waits since `since` for a writeback buffer line. -/
  | waitWb (since : Nat)
  /-- Waits since `since` for an engine queue entry (10_update_engines.md R283). -/
  | waitEng (since : Nat)
  /-- Waits for a fill of a way (11_cache.md R304). -/
  | waitFill (set way : Nat)
  /-- An atomic behind earlier atomics of its line that have not reached their engine yet (12_coherence.md R330). -/
  | behind
  /-- In the blocked queue since `since` (12_coherence.md R331). -/
  | blocked (since : Nat)
  /-- Its transaction is open at the home. -/
  | home
  /-- Queued on an update engine or executing there. -/
  | engine
  /-- An `AT_VACC` waiting for its bank slots (08_accumulation.md R247). -/
  | vacc
  /-- An open pull (06_streams.md R194). -/
  | pull
  /-- A REG_WR whose rule fixes a later response. -/
  | regWait
  /-- A read of ACC.DBG_DATA0 that waits for a free slot of its bank (08_accumulation.md R251). -/
  | laneRead
deriving DecidableEq, Repr

/-- A region entry read from its two words (03 R89, R90). -/
structure Region where
  /-- First granule. -/
  base : Nat
  /-- Last granule. -/
  limit : Nat
  /-- The entry is in use. -/
  valid : Bool
  /-- Line class. -/
  cls : Nat
  /-- 0 STREAM-only, 1 COHERENT, 2 UNCACHED. -/
  mode : Nat
  /-- Secure. -/
  secure : Bool
  /-- Mirror. -/
  mirror : Bool
  /-- Permissions P0-P3, three bits each. -/
  perms : Nat
  /-- Stored format. -/
  fmt : Nat
deriving DecidableEq, Repr

/-- An entry of the 64-entry request table (02_fabric_interface.md R48, R54). -/
structure Req where
  /-- Header flit of the request. -/
  head : BitVec 256
  /-- Payload flits. -/
  payload : List CData
  /-- Virtual channel it arrived on. -/
  vc : Nat
  /-- The sclk at which its header reached the input lanes. -/
  arrived : Nat
  /-- The sclk of its last progress (13_errors_poison_scrub.md R368). -/
  progress : Nat
  /-- Where it stands. -/
  phase : Phase
  /-- The region its check hit, as the copy active in the sclk of that check gives it (03_addressing_regions.md R105). -/
  rgn : Option Region := none
deriving DecidableEq, Repr

/-- An `INT` the slice is delivering (02_fabric_interface.md R67). -/
structure IntTxn where
  /-- TXN of the current attempt, none while no attempt is out. -/
  txn : Option Nat
  /-- Page that raised it. -/
  page : Nat
  /-- VECTOR at the rise. -/
  vector : Nat
  /-- 1 core, 2 host agent. -/
  dest : Nat
  /-- Destination number. -/
  target : Nat
  /-- Attempts begun. -/
  attempts : Nat
  /-- The sclk from which the current attempt is timed. -/
  since : Nat
  /-- The current attempt failed at this sclk. -/
  failedAt : Option Nat
deriving DecidableEq, Repr

/-- An `EVT` that is sent and not yet answered (02_fabric_interface.md R67). -/
structure EvtTxn where
  /-- TXN it carries. -/
  txn : Nat
  /-- Destination: type, number, chip. -/
  dest : Nat × Nat × Nat
  /-- The sclk from which the C-net response timeout runs. -/
  since : Nat
deriving DecidableEq, Repr

/-- An S-net message waiting to leave (02_fabric_interface.md R71). -/
structure SMsg where
  /-- TYPE. -/
  typ : Nat
  /-- A[21:0]. -/
  arg : Nat
  /-- First sclk in which it may leave. -/
  readyAt : Nat
deriving DecidableEq, Repr

/-- Port units of the three fabrics (02_fabric_interface.md). -/
structure FabricSt where
  /-- Request table: entry number 0-63 and its request. -/
  reqs : List (Nat × Req)
  /-- Output packets waiting, oldest first. -/
  out : List OutPkt
  /-- The packet last put on the C-net output lanes and the sclk of its header. -/
  lanes : Option (Nat × OutPkt)
  /-- First sclk in which the output lanes are free for a further packet. -/
  laneFree : Nat
  /-- Credits held at the next hop for VC 0-4. -/
  credHeld : List Nat
  /-- Credits still to be returned for VC 0-4. -/
  credOwed : List Nat
  /-- The sclk up to which owed credits have been returned. -/
  credAt : Nat
  /-- Credits returned on CRV since the last reset, for VC 0-4. -/
  credBack : List Nat
  /-- The sclk and channel of the credits returned last, the latest first (02 R42, R46). -/
  credOut : List (Nat × Nat)
  /-- A quench is in force since this sclk q (R73). -/
  quench : Option Nat
  /-- The sclk q of the last quench (R73). -/
  quenchAt : Nat
  /-- The sclk r of the last release (R74). -/
  release : Nat
  /-- The S-net receiver has not yet seen a beat with START = 0 (R69). -/
  footing : Bool
  /-- S-net messages waiting. -/
  sOut : List SMsg
  /-- The S-net message last put on the output and the sclk of its beat 0. -/
  sLanes : Option (Nat × SMsg)
  /-- First sclk in which the S-net output is free. -/
  sFree : Nat
  /-- INT deliveries in progress. -/
  ints : List IntTxn
  /-- INTs for the slice's own SMC: page, vector and the sclk of delivery (R67). -/
  smcInts : List (Nat × Nat × Nat)
  /-- INTs delivered to the running SMC, oldest first: page and vector. -/
  smcSeen : List (Nat × Nat)
  /-- EVT messages sent and not yet answered. -/
  evts : List EvtTxn
  /-- The shell's last answer leaves at this sclk (16_power_clocks_reset.md R423). -/
  shellFree : Nat
deriving DecidableEq, Repr

/-- A read of one stored line: delivered line, its tier errors and epoch (04_thallus.md R126). -/
structure LineRead where
  /-- The line as delivered. -/
  line : Line
  /-- The stored data bytes as read. -/
  stored : LineBits
  /-- Tiers that served a BAD chunk, by position, lowest first. -/
  badTiers : List Nat
  /-- The read is uncorrectable. -/
  ue : Bool
  /-- Granule 0 is uncorrectable. -/
  ue0 : Bool
  /-- Granule 1 is uncorrectable. -/
  ue1 : Bool
  /-- EPOCH as stored with the parity chunk, 0 when position 8 lacks a tier (14 R390). -/
  epoch : Nat
  /-- Granule 0 carries a spore that was stored. -/
  st0 : Bool
  /-- Granule 1 carries a spore that was stored. -/
  st1 : Bool
  /-- Granules that this read itself marked with a spore (13 R352). -/
  made : Nat
  /-- It rebuilt a chunk from parity or treated a position as lacking (18 R467, THL_RECON). -/
  recon : Bool
deriving DecidableEq, Repr

/-- What a granted burst is for (17_arbiter_unscheduled.md R453). -/
inductive BKind where
  /-- A catch-up refresh round. -/
  | catchup
  /-- Direct thallus write of the request in this entry: `WR`, `WR_LINE`, `MT_ZERO_PA`. -/
  | uncWrite (slot : Nat)
  /-- UNCACHED read, or snapshot read of a COHERENT line, for the request in this entry (11_cache.md R309). -/
  | snapRead (slot : Nat)
  /-- Fill of a way. -/
  | fill (set way : Nat)
  /-- A pinned line leaving the writeback buffer. -/
  | wback (buf : Nat)
  /-- Atomic on an UNCACHED line in the request's entry. -/
  | atomic (slot : Nat)
  /-- Next line of the pull in this context. -/
  | pull (ctx : Nat)
  /-- `ST_PUSH` of the request in this entry. -/
  | push (slot : Nat)
  /-- Repair, seal or mirror rewrite of the queue entry keyed by LINE. -/
  | repair
  /-- Sorus row fill step (14_sparing_rebuild.md R381). -/
  | fillStep (tier entry : Nat)
  /-- Rebuild step (14 R387). -/
  | rebuild
  /-- Pinned next-line prefetch into a way. -/
  | prefetch (set way : Nat)
  /-- Scrub read of a lap index (13 R358). -/
  | scrub
  /-- The write of copy B that ends a mirror write (04_thallus.md R139). -/
  | copyB
deriving DecidableEq, Repr

/-- A burst presented to the arbiter. -/
structure Burst where
  /-- Requester ID 0-9. -/
  rid : Nat
  /-- What it does. -/
  kind : BKind
  /-- LINE it accesses (copy A of a mirror line). -/
  line : Nat
  /-- The burst reads the line first. -/
  reads : Bool
  /-- The burst writes the line. -/
  writes : Bool
  /-- The sclk at which it was queued, its age. -/
  since : Nat
  /-- LINE of copy B when the line is a mirror line under the region table that the access goes by. -/
  twin : Option Nat := none
deriving DecidableEq, Repr

/-- A granted access on its way through the thallus. -/
structure Flight where
  /-- What it is for. -/
  kind : BKind
  /-- LINE accessed. -/
  line : Nat
  /-- LINE of copy B when the line is a mirror line. -/
  twin : Option Nat
  /-- Slot of the read, if it reads. -/
  readAt : Option Nat
  /-- What the read found in copy A, captured at its slot. -/
  sample : Option LineRead
  /-- What the read found in copy B. -/
  sampleB : Option LineRead
  /-- Slot of the write of copy A, if it writes. -/
  writeAt : Option Nat
  /-- The sclk at which the read line is at the controller output. -/
  outAt : Nat
  /-- The last slot of the burst. -/
  lastSlot : Nat
  /-- The line has been written since it was read (13 R351). -/
  stale : Bool := false
  /-- Line and epoch that copy B of a mirror line takes at the last slot; `line` is then copy B and `twin` copy A (04_thallus.md R139). -/
  second : Option (Line × Nat) := none
deriving DecidableEq, Repr

/-- Bank-group slots an unscheduled burst has taken: group, first and last slot, and the line accesses within. -/
structure Taken where
  /-- Bank group 0-3. -/
  group : Nat
  /-- First slot. -/
  first : Nat
  /-- Last slot. -/
  last : Nat
  /-- Slots with a line access. -/
  lines : List Nat
deriving DecidableEq, Repr

/-- An entry of the queue of repairs and seals (13_errors_poison_scrub.md R351). -/
structure RepairEnt where
  /-- LINE (of copy A for a mirror line). -/
  line : Nat
  /-- It is a seal. -/
  isSeal : Bool
  /-- The copies it rewrites: LINE of each. -/
  copies : List Nat
  /-- The line it writes. -/
  data : Line
  /-- EPOCH it writes. -/
  epoch : Nat
  /-- The sclk it was queued. -/
  since : Nat
deriving DecidableEq, Repr

/-- The thallus and its controller (04_thallus.md). -/
structure ThlSt where
  /-- Chunks that differ from their tier's base, keyed by ((tier * 16 + bank) * 1032 + row) * 64 + column; rows 1024-1031 are the sorus. -/
  cells : List (Nat × BitVec 144)
  /-- Per tier: how many times its contents have become undefined. -/
  gen : List Nat
  /-- Per tier: 0 where the base is undefined, p + 1 where the initialization pass of R500 has written it as position p, so that an unlisted
  chunk of a data row is that of a zero line. -/
  base : List Nat
  /-- Tiers with a BAD chunk in each of the last reads, latest first, at most 63 (R133). -/
  badHist : List (List Nat)
  /-- Next refresh row 0-1031. -/
  refRow : Nat
  /-- Refresh rounds made in the window of the current frame (R129). -/
  rounds : Nat
  /-- The sclk at which the current pass began, its time while retention stopped it taken out. -/
  passStart : Nat
  /-- Retention stopped the pass timer at this sclk. -/
  passHeld : Option Nat
  /-- Catch-up rounds are running. -/
  catchup : Bool
  /-- An initialization pass is due (R500). -/
  initDue : Bool
  /-- It runs since this sclk. -/
  initAt : Option Nat
  /-- Sclk since then, in frames that have ended, in which it could make no access: refresh and guard slots (R500). -/
  initLost : Nat
  /-- Rows open for unscheduled accesses: bank and row (R120). -/
  openRows : List (Nat × Nat)
  /-- Last slot of the last catch-up round that was granted: it left every bank closed (04_thallus.md R131). -/
  shutAt : Nat
  /-- Accesses in flight, by slot. -/
  flights : List Flight
  /-- Slots taken by unscheduled bursts of this frame and the next. -/
  taken : List Taken
deriving DecidableEq, Repr

/-- A commit of the region table without a tick (03_addressing_regions.md R103). -/
structure RgnNow where
  /-- The sclk of its write. -/
  start : Nat
  /-- Words of the shadow copy at the write: BOUND and ATTR of the 64 entries. -/
  words : List Word
  /-- Entries that have taken their sclk. -/
  checked : Nat
  /-- The refusal: the sclk in which it takes effect, code and index. -/
  fault : Option (Nat × Nat × Nat)
deriving DecidableEq, Repr

/-- The region table's commit engine (03_addressing_regions.md R101-R104); both copies of the table are in the register file. -/
structure RgnSt where
  /-- A commit is armed. -/
  pending : Bool
  /-- Its check is running. -/
  checking : Bool
  /-- The sclk a in which the arming write took effect. -/
  armedAt : Nat
  /-- The held entries fixed at that sclk: half and index. -/
  heldEnts : List (Nat × Nat)
  /-- Entries of the armed check that have taken their sclk. -/
  checked : Nat
  /-- The refusal of the armed check: the sclk in which it takes effect, code, index, frond and half. -/
  fault : Option (Nat × Nat × Nat × Nat × Nat)
  /-- The sclk of a CANCEL (R104). -/
  cancelAt : Option Nat
  /-- NOW commits under way (R103). -/
  nows : List RgnNow
  /-- Ranges of granules, first and last, that a commit has taken out of the active copy as COHERENT ones (R107). -/
  wasCoh : List (Nat × Nat)
deriving DecidableEq, Repr

/-- State of the frame engine (05_frames_and_fronds.md R176). -/
inductive FState where
  | idle | running | stopped | resync | quenched | failed
deriving DecidableEq, Repr

/-- State of the half other than the active one (R167). -/
inductive HalfSt where
  | empty | opened | validating | pending
deriving DecidableEq, Repr

/-- A FRAME_COPY under way (15 R419). -/
structure CopySt where
  /-- S of its channel. -/
  secure : Bool
  /-- Words of the image still to be loaded. -/
  left : Nat
  /-- Response code of the `ST_PULL`, once it has ended. -/
  code : Option Nat
  /-- The validation has been started. -/
  checking : Bool
deriving DecidableEq, Repr

/-- What the slice keeps with an accepted program (R98, R170, R182). -/
structure ProgInfo where
  /-- S attribute of the program. -/
  secure : Bool
  /-- Earliest thallus claim or implied row command, 0x1FFFF for none. -/
  firstClaim : Nat
  /-- Scheduled line accesses A. -/
  accesses : Nat
  /-- The sclk at which it was accepted. -/
  acceptedAt : Nat
deriving DecidableEq, Repr

/-- An egress flit presented by a frond, with the sclk at which it is on the output lanes (02 R36). -/
structure EgressFlit where
  /-- The sclk on the lanes. -/
  sclk : Nat
  /-- Data lanes as driven, a lane that a spare carries at 0 (14_sparing_rebuild.md R384). -/
  data : BitVec 1024
  /-- Sideband lanes as driven. -/
  side : BitVec 64
  /-- Spare lanes. -/
  spare : BitVec 8 := 0
deriving DecidableEq, Repr

/-- A matched flit in the ingress buffer (02 R37). -/
structure IngressFlit where
  /-- Entry index of the frond. -/
  entry : Nat
  /-- Beat k. -/
  beat : Nat
  /-- Its payload and spores. -/
  line : Line
deriving DecidableEq, Repr

/-- The frame engine, frame memory and validator (05). -/
structure FrmSt where
  /-- STATUS.STATE. -/
  state : FState
  /-- STATUS.ACTIVE_HALF. -/
  activeHalf : Nat
  /-- STATUS.HELD with what is kept of the active program. -/
  active : Option ProgInfo
  /-- STATUS.INACT. -/
  inact : HalfSt
  /-- What is kept of the PENDING program. -/
  pend : Option ProgInfo
  /-- STATUS.WAKE_WAIT. -/
  wakeWait : Bool
  /-- STATUS.LOADED_V. -/
  loadedV : Bool
  /-- STATUS.EXEC_V. -/
  execV : Bool
  /-- Frame memory words keyed by half * 8192 + word. -/
  mem : List (Nat × Word)
  /-- The validation running: sclk of its (re)start and S of the program. -/
  valAt : Option (Nat × Bool)
  /-- CTL.SEQ_CHECK as the running validation found it at its start. -/
  valSeq : Bool
  /-- The FRAME_COPY that Torif carries out (15 R419). -/
  copy : Option CopySt
  /-- The last frame sclk 0, ticked or self-timed. -/
  frame0 : Option Nat
  /-- The current frame was started by the controller itself (R130). -/
  selfTimed : Bool
  /-- The frame sclk 0 against which the next tick is timed (R72). -/
  tickRef : Option Nat
  /-- Frame number of the last frame sclk 0. -/
  frameNo : Nat
  /-- A program runs in the current frame. -/
  runs : Bool
  /-- A frame fault has stopped the frames; frames not run are counted (R177). -/
  faulted : Bool
  /-- A frame fault has come and no frame has run since: B-net flits are dropped unlogged (02 R38). -/
  quietB : Bool
  /-- Scheduled line accesses of the program that runs the frame, 0 in a frame that runs none (01 R25). -/
  charged : Nat
  /-- No claim at or after this sclk is executed (fault). -/
  haltAt : Option Nat
  /-- Unscheduled line accesses granted in this frame (01 R25). -/
  unsched : Nat
  /-- Steps done of each frond of the running frame: entry and steps. -/
  progress : List (Nat × Nat)
  /-- Barriers waiting for a release: entry, BAR_ID and the last sclk. -/
  barriers : List (Nat × Nat × Nat)
  /-- Egress flits of the current frame. -/
  egress : List EgressFlit
  /-- Ingress buffer. -/
  ingress : List IngressFlit
  /-- The REFRESH_RESERVE in force since the last frame sclk 0 (R182). -/
  reserveNow : Nat
  /-- Lines and beats that the fronds of the current frame hold, keyed by entry * 2^20 + index. -/
  held : List (Nat × Line)
  /-- A quench fell in the current frame at this sclk q: no frond starts from q + 1 (02 R73). -/
  stopAt : Option Nat
deriving DecidableEq, Repr

/-- The arbiter (17_arbiter_unscheduled.md); configurations, counters and maxima are in the register file. -/
structure ArbSt where
  /-- Bursts waiting, each requester's in its order. -/
  queue : List Burst
  /-- Current wait counters of requesters 0-9, as of `countAt`. -/
  wait : List Nat
  /-- First presentation of each requester's head (R459). -/
  headAt : List (Nat × Nat)
  /-- Pull context served last (R453). -/
  lastPull : Nat
  /-- The sclk of the last decision. -/
  lastDecision : Nat
  /-- Requesters whose head has held a run since a decision (R458, R460). -/
  holders : List Nat
deriving DecidableEq, Repr

/-- RAS unit (13); bucket levels, counters and fail-stop records are in the register file. -/
structure RasSt where
  /-- The slice is in fail-stop since this sclk. -/
  fsAt : Option Nat
  /-- The sclk of the last FAULT message. -/
  faultAt : Nat
  /-- Start of each domain's leak timer: domain and sclk; an unlisted domain's is `leakBase`. -/
  leakAt : List (Nat × Nat)
  /-- Start of the leak timers at the last reset. -/
  leakBase : Nat
  /-- Repairs and seals waiting. -/
  repairs : List RepairEnt
  /-- Scrub reads made in this frame. -/
  scrubs : Nat
  /-- SCRUB_SLOW was logged in this lap. -/
  slowLogged : Bool
  /-- The sclk of the last patrol read. -/
  patrolAt : Nat
  /-- The sclk from which the watchdog counts. -/
  wdogAt : Nat
  /-- The watchdog's count while WDOG_CTL.EN = 0 holds it. -/
  wdogHeld : Option Nat
  /-- Upset SRAM words: array (its RAS domain and sub-array), word, and whether the upset is uncorrectable. -/
  upsets : List (Nat × Nat × Nat × Bool)
  /-- Mismatches planted on physical engines: engine and how many of its next operations mismatch. -/
  engUpsets : List (Nat × Nat)
  /-- The sclk and bit of each page's ERR_FIRST capture, for R19. -/
  firstAt : List (Nat × Nat)
  /-- The sclk of GLOBAL_FIRST's capture, for R361. -/
  globalAt : Nat
  /-- Earlier values of the limit registers, oldest first: key, the sclk in which the response of the write that replaced the value left, the
  value; timers that started by then keep it (R362; 12 R345). -/
  limits : List (Nat × Nat × Nat)
deriving DecidableEq, Repr

/-- Power state of the ENG or SMC domain (16 R433, R434). -/
inductive DomState where
  | off | on
  /-- Powering up until the sclk. -/
  | rising (until_ : Nat)
  /-- Switching off until the sclk. -/
  | falling (until_ : Nat)
deriving DecidableEq, Repr

/-- State of a tier (16 R425). -/
inductive TState where
  | off | sleep | queued | waking | awake | entering | failed
deriving DecidableEq, Repr

/-- One tier's power state. -/
structure TierSt where
  /-- The state of R425. -/
  st : TState
  /-- State before QUEUED or WAKING: true for SLEEP, false for OFF. -/
  fromSleep : Bool
  /-- Start of the wake or of the sleep entry. -/
  start : Nat
  /-- WAKE_TMO that applies to the wake that runs. -/
  tmo : Nat
  /-- A sleep request waits for the wake to end (R428). -/
  thenSleep : Bool
  /-- A wake request waits for the entry to end. -/
  thenQueue : Bool
  /-- The entry ends in OFF (T9, R451). -/
  thenOff : Bool
  /-- A WAKE_TIER frond or a wake command needs it until its wake starts (R428). -/
  asked : Bool
  /-- The reset sequence wakes it. -/
  bySeq : Bool
deriving DecidableEq, Repr

/-- Power controller, governor and resets (16). -/
structure PwrSt where
  /-- LOGIC is on. -/
  logic : Bool
  /-- LOGIC is powering up until this sclk (R437), with the cause that SLC.RST_CAUSE then names. -/
  logicUp : Option (Nat × Nat)
  /-- ENG domain. -/
  eng : DomState
  /-- SMC domain. -/
  smc : DomState
  /-- Tiers T0-T9. -/
  tiers : List TierSt
  /-- Wake queue. -/
  queue : List Nat
  /-- Tokens held. -/
  tokens : Nat
  /-- A WAKE_REQ is out: its n, the start of req_timer, resends, GNT_SLOW logged. -/
  req : Option (Nat × Nat × Nat × Bool)
  /-- The sclk of the last wake start. -/
  lastStart : Option Nat
  /-- An accepted ENTER: the sclk r at which its response leaves (R436). -/
  retainAt : Option Nat
  /-- The slice is in retention. -/
  retained : Bool
  /-- Tiers AWAKE at the entry. -/
  recorded : List Nat
  /-- PORST_N is asserted. -/
  porst : Bool
  /-- WRST_N is asserted. -/
  wrst : Bool
  /-- A reset ordered through a register: kind, its assertion, its release, and whether the assertion has taken effect. -/
  ordered : Option (ResetKind × Nat × Nat × Bool)
  /-- Sclk 0 of the last release sequence (R443). -/
  seq0 : Nat
  /-- The SMC is held in reset until this sclk; 0 for not. -/
  smcReset : Nat
  /-- Fail-stop class of the state that the running warm reset ends, 0 for none (13 R370). -/
  endedFs : Nat
deriving DecidableEq, Repr

/-- Rebuild state (14_sparing_rebuild.md R389). -/
inductive RebuildSt where
  | idle | waking | running | paused | done
deriving DecidableEq, Repr

/-- A check of shadow sparing copies: that of an armed commit, or of one without a tick (14_sparing_rebuild.md R378-R380). -/
structure SprChk where
  /-- The sclk of its write. -/
  start : Nat
  /-- Shadow CAM words at the write, keyed by tier * 64 + entry. -/
  cams : List (Nat × Word)
  /-- Shadow lane map words at the write. -/
  lanes : List (Nat × Word)
  /-- Entries that have taken their sclk. -/
  checked : Nat
  /-- The refusal: the sclk in which it takes effect, code, tier, index and direction. -/
  fault : Option (Nat × Nat × Nat × Nat × Nat)
deriving DecidableEq, Repr

/-- Sparing, row fill and rebuild (14). -/
structure SprSt where
  /-- Shadow CAM words keyed by tier * 64 + entry. -/
  camShd : List (Nat × Word)
  /-- Active CAM words (AON). -/
  camAct : List (Nat × Word)
  /-- Shadow lane map words of spares 0-7. -/
  laneShd : List (Nat × Word)
  /-- Active lane map words (AON). -/
  laneAct : List (Nat × Word)
  /-- BLANE_SW was high in this sclk (R447). -/
  laneSw : Option Nat
  /-- A cache way that Torif takes out of use: the way, the set whose `MT_CLINV_SW` is next, and whether one is out (R392). -/
  wayOut : Option (Nat × Nat × Bool)
  /-- COMMIT_STATUS.PENDING. -/
  pending : Bool
  /-- COMMIT_STATUS.CHECKING. -/
  checking : Bool
  /-- The check of the armed commit (R378). -/
  armed : Option SprChk
  /-- The sclk at which checking ended. -/
  checkedAt : Nat
  /-- The sclk of a CANCEL (R380). -/
  cancelAt : Option Nat
  /-- NOW commits under way (R380). -/
  nows : List SprChk
  /-- Pending lines: tier, CAM entry and the columns still pending, in fill order (AON). -/
  fills : List (Nat × Nat × List Nat)
  /-- Rebuild state (AON). -/
  rebuild : RebuildSt
  /-- Position under rebuild or served by T9. -/
  pos : Nat
  /-- T9 serves POS completely. -/
  serves : Bool
  /-- Frontier F, 0-1,048,576 (AON). -/
  front : Nat
  /-- Rebuild steps made in this frame. -/
  steps : Nat
deriving DecidableEq, Repr

/-- A group that is not CLOSED (08_accumulation.md R226). -/
structure GroupSt where
  /-- 1 OPENING, 2 OPEN, 3 CLOSING. -/
  st : Nat
  /-- First lane. -/
  lane : Nat
  /-- Lanes. -/
  lanes : Nat
  /-- WLSB. -/
  wlsb : Int
  /-- STATS = 1. -/
  stats : Bool
  /-- Entry of its OPEN_GROUP. -/
  entry : Nat
  /-- Last sclk at which it takes an `AT_VACC` add: the sclk its program closes it (R247). -/
  closeAt : Nat
deriving DecidableEq, Repr

/-- One add of a granted `AT_VACC` (08 R247). -/
structure VaccAdd where
  /-- Its slot. -/
  sclk : Nat
  /-- Lane. -/
  lane : Nat
  /-- Group. -/
  group : Nat
  /-- Request table entry. -/
  slot : Nat
  /-- Element of the vector, its raw bits. -/
  raw : Nat
  /-- FMT of the vector. -/
  fmt : Nat
  /-- The add is of the square (the second lane of a pair). -/
  square : Bool
  /-- Its granule is poisoned. -/
  poison : Bool
deriving DecidableEq, Repr

/-- Accumulators (08). -/
structure AccSt where
  /-- Lanes that differ from the zero image. -/
  lanes : List (Nat × LaneBits)
  /-- Groups that are not CLOSED. -/
  groups : List (Nat × GroupSt)
  /-- STATUS.READY. -/
  ready : Bool
  /-- Lane initialization runs since this sclk (R250). -/
  initAt : Option Nat
  /-- `AT_VACC` accepted and not granted: request table entries, oldest first. -/
  vacc : List Nat
  /-- Adds of granted vectors still to come. -/
  adds : List VaccAdd
  /-- The sclk of the last vector add of each bank (10_update_engines.md R269). -/
  lastAdd : List (Nat × Nat)
  /-- Applied SAT_FP8 of closes. -/
  satFp8 : Bool
  /-- Applied SAT_WIDE of closes. -/
  satWide : Bool
  /-- Words 1-3 held by a debug read. -/
  dbgHold : Option (Word × Word × Word)
  /-- Lanes whose read for a close or a forward mismatched in this frame (10_update_engines.md R271). -/
  readBad : List Nat
deriving DecidableEq, Repr

/-- An egress context of an EPC frond (07_weight_decode.md R204, R214). -/
structure EgrCtx where
  /-- Block that begins at `pos`. -/
  blk : Nat
  /-- Byte position in the stream. -/
  pos : Nat
  /-- Normal decode has ended. -/
  ended : Bool
  /-- Lines dropped or spored by R207 and R220. -/
  dropped : List Nat
deriving DecidableEq, Repr

/-- An open pull (06_streams.md R194-R199). -/
structure PullCtx where
  /-- Its request table entry. -/
  slot : Nat
  /-- LINE of the stream's first stored line. -/
  line : Nat
  /-- LINES. -/
  lines : Nat
  /-- TILES. -/
  tiles : Nat
  /-- SHAPE. -/
  shape : Nat
  /-- OUT_FMT. -/
  out : Nat
  /-- START_ROW. -/
  startRow : Nat
  /-- Stored format of its region at the check. -/
  fmt : Nat
  /-- Applied SAT_FP8 at acceptance. -/
  satFp8 : Bool
  /-- Applied SAT_WIDE at acceptance. -/
  satWide : Bool
  /-- Next line to read, counted from the stream's first. -/
  nextLine : Nat
  /-- A read of this line is with the arbiter or in flight. -/
  reading : Bool
  /-- Lines read and still needed: index, line and the sclk from which it is decodable. -/
  buf : List (Nat × Line × Nat)
  /-- Next 128-byte unit to decode. -/
  unit : Nat
  /-- EPC: block that begins at `pos`. -/
  blk : Nat
  /-- EPC: byte position. -/
  pos : Nat
  /-- Normal decode has ended (R214). -/
  ended : Bool
  /-- Buffered lines that an uncorrectable word marked (R220). -/
  dropped : List Nat
  /-- Next 32-byte flit to send, counted from byte 0 of the stream. -/
  sent : Nat
  /-- A packet carried OK_POISON. -/
  poison : Bool
deriving DecidableEq, Repr

/-- Decode stage (07). -/
structure DecSt where
  /-- Applied SAT_FP8. -/
  satFp8 : Bool
  /-- Applied SAT_WIDE. -/
  satWide : Bool
  /-- Contexts of EGRESS fronds in this frame, by entry. -/
  egr : List (Nat × EgrCtx)
  /-- Open pulls by context 0-7. -/
  pulls : List (Nat × PullCtx)
  /-- The sclk of the last decode slot that a pull took (R206). -/
  slotAt : Option Nat
  /-- The context that took it (17 R454). -/
  lastCtx : Nat
deriving DecidableEq, Repr

/-- An atomic an engine has started (10_update_engines.md R283). -/
structure AtomFlight where
  /-- Position. -/
  pos : Nat
  /-- Physical engine. -/
  phys : Nat
  /-- Request table entry. -/
  slot : Nat
  /-- Line address for the bucket. -/
  line : Nat
  /-- Executions that mismatched so far (R271). -/
  miss : Nat
deriving DecidableEq, Repr

/-- Update engines (10); maps, owners, counters and slots are in the register file. -/
structure UpdSt where
  /-- Queue of each position: request table entries, oldest first. -/
  queues : List (Nat × List Nat)
  /-- Atomics in flight. -/
  flights : List AtomFlight
  /-- Held writes of step slot registers: offset in the page and value (R288). -/
  held : List (Nat × Word)
  /-- Values of each slot that the frame uses: T, LR, WD, GSCALE, BETA1, BETA2, EPS, then the constants C1, C2, BC1, BC2 (R289). -/
  consts : List (Nat × List Word)
  /-- Slots that advance at the next frame that runs (R289). -/
  advance : List Nat
  /-- A checked map waits since this sclk (R272). -/
  mapAt : Option Nat
  /-- The sclk of a CANCEL (R272). -/
  mapCancel : Option Nat
  /-- NOW commits that passed: the sclk in which each takes effect, and the words it checked (R273). -/
  mapNows : List (Nat × List Word)
  /-- The sclk in which each position last started an atomic (R270). -/
  started : List (Nat × Nat)
  /-- The sclk of the last steal (R284). -/
  stolen : Option Nat
deriving DecidableEq, Repr

/-- One way of the cache: its tag word (11_cache.md R298), MRU bit and data. -/
structure CWay where
  /-- SPACE: cached space. -/
  space : Bool
  /-- The line index x that ATAG and the set name (R297). -/
  x : Nat
  /-- CLS. -/
  cls : Nat
  /-- SEC. -/
  sec : Bool
  /-- STATE: 0 INVALID, 1 CLEAN, 2 DIRTY, 3 FILL. -/
  st : Nat
  /-- SPORE of granule 0. -/
  sp0 : Bool
  /-- SPORE of granule 1. -/
  sp1 : Bool
  /-- PF. -/
  pf : Bool
  /-- MRU bit. -/
  mru : Bool
  /-- Data array. -/
  data : LineBits
deriving DecidableEq, Repr

/-- An outstanding fill of a way in FILL (11 R304). -/
structure FillEnt where
  /-- Set. -/
  set : Nat
  /-- Way. -/
  way : Nat
  /-- A prefetch. -/
  pf : Bool
  /-- TXN of the `RD` to the host agent; none for a thallus read. -/
  txn : Option Nat
  /-- The sclk from which its timeout runs. -/
  since : Nat
deriving DecidableEq, Repr

/-- A line of the writeback buffer (11 R306). -/
structure WbEnt where
  /-- SPACE. -/
  space : Bool
  /-- Line index. -/
  x : Nat
  /-- The line. -/
  line : Line
  /-- Set it left. -/
  set : Nat
  /-- Way it left. -/
  way : Nat
  /-- Class its `WR_LINE` carries. -/
  cls : Nat
  /-- The sclk from which the host agent's answer is timed. -/
  since : Nat
  /-- The host agent's last answer failed at this sclk. -/
  failedAt : Option Nat
  /-- WB_STALL was logged. -/
  stalled : Bool
  /-- Request table entries that complete with this writeback (R310). -/
  waiters : List Nat
  /-- Order of entry: greater than that of every line then in the buffer. -/
  ord : Nat
deriving DecidableEq, Repr

/-- A request the slice itself sends the host agent for a request table entry (11 R301, R309). -/
structure HostOp where
  /-- The entry. -/
  slot : Nat
  /-- It is a read. -/
  reads : Bool
  /-- The sclk from which its timeout runs. -/
  since : Nat
deriving DecidableEq, Repr

/-- The cache (11). -/
structure CchSt where
  /-- Ways keyed by set * 16 + way, where they differ from an invalid, untouched one. -/
  ways : List (Nat × CWay)
  /-- Outstanding fills. -/
  fills : List FillEnt
  /-- Writeback buffer: lines 0-7. -/
  wb : List (Nat × WbEnt)
  /-- Direct host accesses under R301 and R309. -/
  host : List HostOp
  /-- SLC.STATUS.CACHE_READY. -/
  ready : Bool
  /-- Tag invalidation runs since this sclk (R316). -/
  initAt : Option Nat
  /-- Upper tag word held by the debug view (R318). -/
  dbgHold : Option Word
deriving DecidableEq, Repr

/-- A directory entry (12_coherence.md R323, R324); BUSY follows from the open transactions. -/
structure DirEnt where
  /-- SPACE. -/
  space : Bool
  /-- Line index. -/
  x : Nat
  /-- STATE: 1 S, 2 F, 3 E, 4 O. -/
  st : Nat
  /-- CLS. -/
  cls : Nat
  /-- BCAST. -/
  bcast : Bool
  /-- FIDX. -/
  fidx : Nat
  /-- Pointers in use, PTR0 first. -/
  ptrs : List Nat
deriving DecidableEq, Repr

/-- An outstanding forward or snoop (12 R327, R336, R340). -/
structure Await where
  /-- Core it went to. -/
  core : Nat
  /-- Opcode 0x40-0x45. -/
  op : Nat
  /-- The sclk from which its timeout runs. -/
  since : Nat
  /-- The core's own answer has arrived. -/
  answered : Bool
  /-- The answer was `RSP_FWD_MISS_WB` and the writeback is awaited. -/
  miss : Bool
  /-- A crossing writeback has arrived. -/
  wb : Bool
  /-- The message has left: until then nothing is outstanding and no timeout runs (R335, R340). -/
  left : Bool
deriving DecidableEq, Repr

/-- An open transaction on a line (12 R330). -/
structure Txn where
  /-- SPACE. -/
  space : Bool
  /-- Line index. -/
  x : Nat
  /-- 0 waits for an eviction, 1 snoops out, 2 forward out, 3 acts on the home copy, 4 response sent or a core serves the requester. -/
  stage : Nat
  /-- Outstanding forwards and snoops. -/
  awaits : List Await
  /-- Core that will be sent a forward after the snoops, with its opcode. -/
  fwd : Option (Nat × Nat)
  /-- `RSP_ACK` awaited since. -/
  ack : Option Nat
  /-- A timeout lost data: responses carry both spores (R340). -/
  poison : Bool
  /-- Data of a `DAT_SNP` or writeback that answers `FWD_NOALLOC`. -/
  data : Option Line
  /-- Recalled data that still waits for a place in the home copy. -/
  merge : Option Line
  /-- `RSP_ACK` has arrived. -/
  acked : Bool
  /-- The transaction's invalidation was a broadcast. -/
  bcast : Bool
  /-- Class under which the line is held, for data that the transaction installs (11_cache.md R299; R324). -/
  cls : Nat
  /-- The home copy is to be marked poisoned and is not held yet (R340). -/
  mark : Bool
  /-- The directory place that the eviction it waits for frees for it (R338). -/
  place : Option Nat
deriving DecidableEq, Repr

/-- The directory (12). -/
structure DirSt where
  /-- Valid entries keyed by set * 16 + physical way. -/
  ents : List (Nat × DirEnt)
  /-- Round-robin pointers of the sets that are not 0. -/
  rr : List (Nat × Nat)
  /-- Open transactions: request table entry 0-63, 64 + entry for the eviction it waits for, 128 + set for a retirement sweep. -/
  txns : List (Nat × Txn)
  /-- Blocked queue: request table entries, oldest first. -/
  blocked : List Nat
  /-- STATUS.READY. -/
  ready : Bool
  /-- Clearing runs since this sclk (R342). -/
  initAt : Option Nat
  /-- Physical ways being swept, bit n for way n (R344). -/
  sweep : Nat
  /-- Words held by the debug view: tag high, state low, state high. -/
  dbgHold : Option (Word × Word × Word)
deriving DecidableEq, Repr

/-- An event line (18_pmu_debug_events.md R486, R487). -/
structure EvLine where
  /-- O in the current sclk. -/
  out : Bool
  /-- First sclk of the run in which O has held this value. -/
  since : Nat
  /-- The sclk w of the last change of its SEL. -/
  wr : Option Nat
deriving DecidableEq, Repr

/-- Counters, debug mode, trace buffer and event lines (18); the counters and DBG.CTL.MODE are in the register file. -/
structure ObsSt where
  /-- The sclk up to which the performance counters have counted. -/
  pmuTo : Nat
  /-- The sclk whose wrap set CTL.FROZEN: the counters still count in it (R468). -/
  frozenAt : Option Nat
  /-- The sclk of the last CTL.CNT_CLR: no counter counts in it (R469). -/
  clearedAt : Option Nat
  /-- Control words of the counters that a write has changed: key, sclk of the write, and the word in force to the end of that sclk (R468,
  R469). -/
  pmuWas : List (Nat × Nat × Word)
  /-- High words held by reads of the low words of wide registers, by the key of the low word (00_scope.md R11). -/
  hold : List (Nat × Word)
  /-- HALT_PEND. -/
  haltPend : Bool
  /-- HALTED. -/
  halted : Bool
  /-- A STEP waits for the tick whose frame it lets run (R475). -/
  stepping : Bool
  /-- HALT_FRAME. -/
  haltFrame : Nat
  /-- Trace records by slot. -/
  trc : List (Nat × BitVec 128)
  /-- Records held. -/
  trcCount : Nat
  /-- Slot of the next record. -/
  trcWr : Nat
  /-- TRC_STATUS.FULL. -/
  trcFull : Bool
  /-- A sclk and the records written in it. -/
  trcNow : Nat × Nat
  /-- Record bits [127:32] held by a read of TRC_DATA0. -/
  trcHold : Option (BitVec 96)
  /-- Event lines that are not at rest at 0. -/
  lines : List (Nat × EvLine)
  /-- Last sclk of each pulse source, keyed by SRC * 256 + ARG. -/
  pulses : List (Nat × Nat)
deriving DecidableEq, Repr

/-- A mailbox message in a queue: its words with the place each has in the queue SRAM, header first, and its source. -/
structure MbxMsg where
  /-- Places and words. -/
  words : List (Nat × Word)
  /-- Source: type, number, chip. -/
  src : Nat × Nat × Nat
  /-- Words the message has in all. -/
  total : Nat
  /-- A word of it was uncorrectable when popped (15_mailboxes_smc.md R412). -/
  bad : Bool
  /-- Torif has pushed its reply. -/
  replied : Bool
  /-- Torif has acknowledged it. -/
  acked : Bool := false
deriving DecidableEq, Repr

/-- One mailbox channel (15); CTL, NOTIFY and the W1C bits of STATUS are in the register file. -/
structure MbxCh where
  /-- Complete inbound messages, oldest first. -/
  inMsgs : List MbxMsg
  /-- Partial inbound message. -/
  inPart : Option MbxMsg
  /-- Messages popped by the SMC, oldest first, until they are both acknowledged and answered. -/
  popped : List MbxMsg
  /-- Next place in the inbound queue. -/
  inWr : Nat
  /-- Words of complete outbound messages not yet read. -/
  outMsgs : List MbxMsg
  /-- Partial outbound message: the words the SMC has pushed so far, its whole length reserved (R402). The `src` field of an outbound message
  keeps its SEQ. -/
  outPart : Option MbxMsg
  /-- Next place in the outbound queue. -/
  outWr : Nat
  /-- SEQ of an outbound message popped whole and not acknowledged. -/
  unacked : Option Nat
  /-- DOORBELL.RING. -/
  ring : Bool
  /-- Owner number of LOCK, and the sclk of the owner's last access. -/
  lock : Option (Nat × Nat)
  /-- SEQ.IN_LAST. -/
  inLast : Nat
  /-- SEQ.IN_ACKED. -/
  inAcked : Nat
  /-- SEQ.OUT_LAST. -/
  outLast : Nat
  /-- SEQ.OUT_ACKED. -/
  outAcked : Nat
  /-- VERSION has completed since the last SMC reset (R418). -/
  agreed : Bool
  /-- SEQ and reply payload of the last inbound message Torif executed (R416), with the reply's SVC. -/
  lastReply : Option (Nat × Nat × List Word)
deriving DecidableEq, Repr

-- ROOT
/-- The whole state of the slice. -/
structure State where
  /-- The current sclk, counted from the model's start (notes/assumptions/1.md). -/
  now : Nat
  /-- Boundary straps and fuses. -/
  straps : Straps
  /-- The register file: page * 4096 + offset and the word, where it differs from the reset value. -/
  regs : List (Nat × Word)
  /-- Port units. -/
  fab : FabricSt
  /-- Thallus. -/
  thl : ThlSt
  /-- Region table commit. -/
  rgn : RgnSt
  /-- Frame engine. -/
  frm : FrmSt
  /-- Accumulators. -/
  acc : AccSt
  /-- Decode stage and pulls. -/
  dec : DecSt
  /-- Update engines. -/
  upd : UpdSt
  /-- Cache. -/
  cch : CchSt
  /-- Directory. -/
  dir : DirSt
  /-- Counters, debug, trace, event lines. -/
  obs : ObsSt
  /-- Arbiter. -/
  arb : ArbSt
  /-- RAS. -/
  ras : RasSt
  /-- Power and reset. -/
  pwr : PwrSt
  /-- Sparing and rebuild. -/
  spr : SprSt
  /-- Mailbox channel `MBN`. -/
  mbn : MbxCh
  /-- Mailbox channel `MBS`. -/
  mbs : MbxCh
  /-- Free values drawn so far: the model's own field (notes/assumptions/5.md). -/
  drawn : Nat
  /-- The commands waiting, first in, first out. -/
  pending : List Instr
deriving DecidableEq, Repr

/-- A tier at rest in a state. -/
def TierSt.rest (st : TState) (seq : Bool) : TierSt :=
  { st := st, fromSleep := false, start := 0, tmo := 0, thenSleep := false, thenQueue := false, thenOff := false, asked := false, bySeq := seq }

/-- A channel with nothing in it. -/
def MbxCh.empty : MbxCh :=
  { inMsgs := [], inPart := none, popped := [], inWr := 0, outMsgs := [], outPart := none, outWr := 0, unacked := none, ring := false, lock := none
    inLast := 0, inAcked := 0, outLast := 0, outAcked := 0, agreed := false, lastReply := none }

/-- The slice while a cold reset is asserted (16 R440, R442): everything at its reset value, every tier OFF, the thallus undefined. `gen`
counts how often each tier's contents became undefined, `drawn` the free values drawn. -/
def State.cold (p : Straps) (now : Nat) (gen : List Nat) (drawn : Nat) (pending : List Instr) : State :=
  { now := now, straps := p, regs := []
    fab := { reqs := [], out := [], lanes := none, laneFree := now, credHeld := [0, 0, 0, 0, 0], credOwed := [0, 0, 0, 0, 0], credAt := now
             credBack := [0, 0, 0, 0, 0], credOut := [], quench := none, quenchAt := 0, release := 0, footing := true, sOut := [], sLanes := none, sFree := now
             ints := [], smcInts := [], smcSeen := [], evts := [], shellFree := now }
    thl := { cells := [], gen := gen, base := List.replicate 10 0, badHist := [], refRow := 0, rounds := 0, passStart := now, passHeld := none
             catchup := false, initDue := true, initAt := none, initLost := 0, openRows := [], shutAt := 0, flights := [], taken := [] }
    rgn := { pending := false, checking := false, armedAt := 0, heldEnts := [], checked := 0, fault := none, cancelAt := none
             nows := [], wasCoh := [] }
    frm := { state := .idle, activeHalf := 0, active := none, inact := .empty, pend := none, wakeWait := false, loadedV := false
             execV := false, mem := [], valAt := none, valSeq := false, copy := none, frame0 := none, selfTimed := true, tickRef := none, frameNo := 0
             runs := false, faulted := false, quietB := false, charged := 0, haltAt := none, unsched := 0, progress := [], barriers := [], egress := [], ingress := []
             reserveNow := 192, held := [], stopAt := none }
    acc := { lanes := [], groups := [], ready := false, initAt := none, vacc := [], adds := [], lastAdd := [], satFp8 := true, satWide := false
             dbgHold := none, readBad := [] }
    dec := { satFp8 := true, satWide := false, egr := [], pulls := [], slotAt := none, lastCtx := 7 }
    upd := { queues := [], flights := [], held := [], consts := [], advance := [], mapAt := none, mapCancel := none, mapNows := [], started := [], stolen := none }
    cch := { ways := [], fills := [], wb := [], host := [], ready := false, initAt := none, dbgHold := none }
    dir := { ents := [], rr := [], txns := [], blocked := [], ready := false, initAt := none, sweep := 0, dbgHold := none }
    obs := { pmuTo := now, frozenAt := none, clearedAt := none, pmuWas := [], hold := [], haltPend := false, halted := false, stepping := false, haltFrame := 0, trc := [], trcCount := 0, trcWr := 0, trcFull := false
             trcNow := (0, 0), trcHold := none, lines := [], pulses := [] }
    arb := { queue := [], wait := List.replicate 10 0, headAt := [], lastPull := 7, lastDecision := now, holders := [] }
    ras := { fsAt := none, faultAt := 0, leakAt := [], leakBase := now, repairs := [], scrubs := 0, slowLogged := false, patrolAt := now
             wdogAt := now, wdogHeld := none, upsets := [], engUpsets := [], firstAt := [], globalAt := 0, limits := [] }
    pwr := { logic := false, logicUp := none, eng := .off, smc := .off, tiers := List.replicate 10 (TierSt.rest .off false), queue := []
             tokens := 0, req := none, lastStart := none, retainAt := none, retained := false, recorded := [], porst := true, wrst := false
             ordered := none, seq0 := now, smcReset := 0, endedFs := 0 }
    spr := { camShd := [], camAct := [], laneShd := [], laneAct := [], laneSw := none, wayOut := none, pending := false, checking := false, armed := none
             checkedAt := 0, cancelAt := none, nows := [], fills := [], rebuild := .idle, pos := 0, serves := false, front := 0, steps := 0 }
    mbn := MbxCh.empty, mbs := MbxCh.empty, drawn := drawn, pending := pending }

/-- What starts at sclk 0 of any release sequence, here the sclk `at_` (16 R443): LOGIC runs, the tag, directory and lane initializations
begin, the input credits are due (02 R46), and every timer of LOGIC starts. -/
def State.startLogic (s : State) (at_ : Nat) : State :=
  { s with
    fab := { s.fab with credOwed := [16, 8, 8, 16, 2], credAt := at_, footing := true }
    cch := { s.cch with initAt := some at_ }
    dir := { s.dir with initAt := some at_ }
    acc := { s.acc with initAt := if s.pwr.eng = .on then some at_ else none }
    obs := { s.obs with pmuTo := at_ }
    arb := { s.arb with lastDecision := at_, holders := [] }
    ras := { s.ras with leakAt := [], leakBase := at_, patrolAt := at_, wdogAt := at_ }
    pwr := { s.pwr with logic := true, logicUp := none, porst := false, wrst := false, ordered := none, seq0 := at_ } }

/-- Sclk 0 of the release sequence of a cold reset (16 R443): T0-T8 are queued for wake, the self-timed frames start (04 R130). A fused-off
slice keeps everything off (16 R423). -/
def State.coldStart (s : State) (at_ : Nat) : State :=
  if s.straps.fused then
    { s with
      fab := { s.fab with credOwed := [16, 8, 8, 16, 2], credAt := at_ }
      pwr := { s.pwr with porst := false, ordered := none, seq0 := at_ } }
  else
    let s1 : State := { s with
      pwr := { s.pwr with
        eng := .on, smc := .on, queue := List.range 9
        tiers := List.replicate 9 (TierSt.rest .queued true) ++ [TierSt.rest .off false] }
      thl := { s.thl with passStart := at_ }
      frm := { s.frm with frame0 := some at_ } }
    s1.startLogic at_

/-- The straps of the modelled slice (notes/assumptions/2.md). -/
def Straps.model : Straps := { build := .L, chip := 0, tile := 0, tokenEn := false, fused := false, good := BitVec.allOnes 256 }

/-- The machine at sclk 0 of the release sequence after PORST_N (16 R443). -/
def State.reset : State := (State.cold Straps.model 0 (List.replicate 10 0) 0 []).coldStart 0

end Sys2Proof.Machine
end

