-- ==== Sys2Proof/Machine/Ops.lean ====
section
/-!
DEFINITION. The named operations every meaning shares: time, register file, error records, interrupts, output packets, S-net messages.
-/

namespace Sys2Proof.Machine

/-- The state with the clock at sclk `t`, or where it stands when `t` has passed (notes/assumptions/1.md). -/
def tickTo (s : State) (t : Nat) : State := { s with now := max s.now t }

/-- The word a register holds. -/
def State.rg (s : State) (key : Nat) : Word := smGetD s.regs key (regReset s.straps.build key)

/-- Store a register's word. -/
def State.rgSet (s : State) (key : Nat) (v : Word) : State :=
  { s with regs := smSet s.regs key v (regReset s.straps.build key) }

/-- Add one to a 32-bit event counter that wraps. -/
def State.bump (s : State) (key : Nat) : State := s.rgSet key (s.rg key + 1)

/-- Add n to a 32-bit event counter that wraps. -/
def State.bumpBy (s : State) (key n : Nat) : State := s.rgSet key (s.rg key + BitVec.ofNat 32 n)

/-- Replace the field [hi:lo] of a register. -/
def State.rgFld (s : State) (key hi lo v : Nat) : State := s.rgSet key (setFld (s.rg key) hi lo v)

/-- Field [hi:lo] of a register. -/
def State.rf (s : State) (key hi lo : Nat) : Nat := fld (s.rg key) hi lo

/-- One bit of a register. -/
def State.rb (s : State) (key i : Nat) : Bool := bit (s.rg key) i

/-- PAGE_STATUS.ERR_PENDING of a page (00_scope.md R16). -/
def errPending (s : State) (page : Nat) : Bool :=
  decide ((s.rg (rk page 0x010) &&& ~~~ s.rg (rk page 0x014)) ≠ 0)

/-- The slice number a packet's SRC or DST field carries: type, number and chip packed as in R50. -/
def own (s : State) : Nat × Nat × Nat := (1, s.straps.tile, s.straps.chip)

/-- Build a header flit (02_fabric_interface.md R50); `attrs` is bits [23:12] of the request it answers or 0. -/
def mkHead (opcode resp attrs txn : Nat) (src dst : Nat × Nat × Nat) (addr param : Nat) : BitVec 256 :=
  BitVec.ofNat 256 (mkFld 6 0 opcode + mkFld 11 8 resp + mkFld 23 12 attrs + mkFld 31 24 txn
    + mkFld 41 32 src.2.1 + mkFld 43 42 src.1 + mkFld 58 44 src.2.2
    + mkFld 73 64 dst.2.1 + mkFld 75 74 dst.1 + mkFld 90 76 dst.2.2
    + mkFld 151 96 addr + mkFld 223 160 param)

/-- OPCODE of a header. -/
def hOpcode (h : BitVec 256) : Nat := fld h 6 0
/-- RESP. -/
def hResp (h : BitVec 256) : Nat := fld h 11 8
/-- RING. -/
def hRing (h : BitVec 256) : Nat := fld h 13 12
/-- S. -/
def hS (h : BitVec 256) : Bool := bit h 14
/-- SPEC. -/
def hSpec (h : BitVec 256) : Bool := bit h 15
/-- CLS. -/
def hCls (h : BitVec 256) : Nat := fld h 16 16
/-- KIND. -/
def hKind (h : BitVec 256) : Nat := fld h 18 17
/-- SIZE code. -/
def hSize (h : BitVec 256) : Nat := fld h 21 19
/-- TXN. -/
def hTxn (h : BitVec 256) : Nat := fld h 31 24
/-- SRC_ID. -/
def hSrcId (h : BitVec 256) : Nat := fld h 41 32
/-- SRC_TYPE. -/
def hSrcType (h : BitVec 256) : Nat := fld h 43 42
/-- SRC_CHIP. -/
def hSrcChip (h : BitVec 256) : Nat := fld h 58 44
/-- The source as type, number, chip. -/
def hSrc (h : BitVec 256) : Nat × Nat × Nat := (hSrcType h, hSrcId h, hSrcChip h)
/-- The destination as type, number, chip. -/
def hDst (h : BitVec 256) : Nat × Nat × Nat := (fld h 75 74, fld h 73 64, fld h 90 76)
/-- ADDR. -/
def hAddr (h : BitVec 256) : Nat := fld h 151 96
/-- SPACE (03_addressing_regions.md R78). -/
def hSpace (h : BitVec 256) : Nat := fld h 151 148
/-- OFFSET of a pinned address (03 R80). -/
def hOffset (h : BitVec 256) : Nat := fld h 122 96
/-- PARAM. -/
def hParam (h : BitVec 256) : Nat := fld h 223 160
/-- The word a `REG_WR` carries in PARAM (02 R60). -/
def hData (h : BitVec 256) : Word := BitVec.ofNat 32 (hParam h)
/-- The tuple of R54 that identifies an outstanding request. -/
def hTuple (h : BitVec 256) : Nat × Nat × Nat × Nat := (hSrcChip h, hSrcType h, hSrcId h, hTxn h)

/-- Put a packet on the output queue. -/
def send (s : State) (p : OutPkt) : State := { s with fab := { s.fab with out := s.fab.out ++ [p] } }

/-- The header of the response with `opcode` to the request `h` (02 R51). -/
def respHead (s : State) (h : BitVec 256) (opcode resp param : Nat) : BitVec 256 :=
  mkHead opcode resp (fld h 21 12) (hTxn h) (own s) (hSrc h) (hAddr h) param

/-- Answer `RSP_COMP` to request `h` that came on channel `vc`, its header free to leave at sclk `at_` (02 R57, R62, R66). -/
def answer (s : State) (h : BitVec 256) (vc code param at_ : Nat) : State :=
  send s { vc := if vc = 4 then 4 else 2, head := respHead s h 0x50 code param, payload := [], readyAt := at_, pull := none, op := hOpcode h }

/-- Answer `RSP_COMP` to a request that has reached stage 12: it keeps its place in the request table until the answer leaves (02 R48, R54;
12 R330). -/
def answerOpen (s : State) (h : BitVec 256) (vc code param at_ : Nat) : State :=
  send s { vc := if vc = 4 then 4 else 2, head := respHead s h 0x50 code param, payload := [], readyAt := at_, pull := none, op := hOpcode h
           entry := true }

/-- Answer `DAT_COMP` with its data flits (02 R57); the request keeps its place until it leaves. -/
def answerData (s : State) (h : BitVec 256) (code : Nat) (flits : List CData) (at_ : Nat) : State :=
  send s { vc := 3, head := respHead s h 0x51 code 0, payload := flits, readyAt := at_, pull := none, op := hOpcode h, entry := true }

/-- Response codes (02 R62). -/
def ok : Nat := 0
/-- `OK_POISON`. -/
def okPoison : Nat := 1
/-- `NACK_UNSUP`. -/
def nackUnsup : Nat := 2
/-- `NACK_RSVD`. -/
def nackRsvd : Nat := 3
/-- `NACK_PERM`. -/
def nackPerm : Nat := 4
/-- `NACK_NX`. -/
def nackNx : Nat := 5
/-- `NACK_SEC`. -/
def nackSec : Nat := 6
/-- `NACK_RANGE`. -/
def nackRange : Nat := 7
/-- `NACK_PWR`. -/
def nackPwr : Nat := 8
/-- `NACK_FULL`. -/
def nackFull : Nat := 9
/-- `NACK_TMO`. -/
def nackTmo : Nat := 0xA
/-- `NACK_BUSY`. -/
def nackBusy : Nat := 0xB
/-- `NACK_FRAME`. -/
def nackFrame : Nat := 0xC

/-- Ask for the SMC domain, as a doorbell ring does; while the domain is still switching off, the power-up follows the end of the switch
(15_mailboxes_smc.md R398; 16 R434). -/
def smcPowerUp (s : State) : State :=
  match s.pwr.smc with
  | .off =>
    { (s.rgFld (rk 0x0B 0x040) 1 1 1) with pwr := { s.pwr with smc := .rising (s.now + 1600) } }
  | .falling _ => s.rgFld (rk 0x0B 0x040) 1 1 1
  | _ => s

/-- The lowest TXN of 0x00-0x1F that no `INT` under way carries: the tuple of an outstanding request is unique (02 R54;
notes/assumptions/7.md). -/
def freeIntTxn (s : State) : Option Nat := (List.range 32).find? fun x => !(s.fab.ints.any fun i => i.txn == some x)

/-- Destination of an `INT` as type, number and chip (02 R67). -/
def intDest (s : State) (i : IntTxn) : Nat × Nat × Nat := (if i.dest = 1 then 0 else 2, i.target, s.straps.chip)

/-- Send an attempt of an `INT`, its header free to leave at sclk `at_` and timed from there. With all 32 TXN numbers in use the attempt
counts as failed at once (02 R67; notes/assumptions/35.md). -/
def sendInt (s : State) (i : IntTxn) (at_ : Nat) : State :=
  match freeIntTxn s with
  | none => { s with fab := { s.fab with ints := s.fab.ints ++ [{ i with txn := none, failedAt := some at_ }] } }
  | some x =>
    send { s with fab := { s.fab with ints := s.fab.ints ++ [{ i with txn := some x, since := at_, failedAt := none }] } }
      { vc := 0, head := mkHead 0x38 0 (mkFld 6 5 1) x (own s) (intDest s i) 0 (i.vector + i.page * 256), payload := [], readyAt := at_
        pull := none }

/-- Raise the interrupt of a page whose ERR_PENDING rose (00 R20; 02 R67). An `INT` of an earlier rise of the page that is still under way
goes on beside it (DESIGN CHOICE, notes/assumptions/35.md). A failed slice sends no request and holds its SMC in reset (02 R77; 13 R369). -/
def raiseInt (s : State) (page : Nat) : State :=
  let route := s.rg (rk page 0x01C)
  let dest := fld route 1 0
  let vec := fld route 15 8
  let tgt := fld route 25 16
  if !(s.rb (rk page 0x008) 0) || dest = 0 || s.ras.fsAt.isSome || s.pwr.retained then s
  else if dest = 3 then
    smcPowerUp { s with fab := { s.fab with smcInts := s.fab.smcInts ++ [(page, vec, s.now + 2)] } }
  else
    sendInt s { txn := none, page := page, vector := vec, dest := dest, target := tgt, attempts := 1, since := s.now + 2, failedAt := none }
      (s.now + 2)

/-- Set the sticky bit of an error (00 R18). -/
def logSticky (s : State) (page b : Nat) : State := s.rgSet (rk page 0x010) (s.rg (rk page 0x010) ||| BitVec.ofNat 32 (2 ^ b))

/-- Record the first error of a page; of the errors of one sclk the lowest bit is kept (00 R19). -/
def logFirst (s : State) (page b info : Nat) : State :=
  let first := s.rg (rk page 0x018)
  let at_ := smGetD s.ras.firstAt page (s.now + 1)
  if !(bit first 31) || (at_ == s.now && decide (b < fld first 28 24)) then
    let s1 := s.rgSet (rk page 0x018) (BitVec.ofNat 32 (0x80000000 + mkFld 28 24 b + mkFld 23 0 info))
    { s1 with ras := { s1.ras with firstAt := smPut s1.ras.firstAt page s.now } }
  else s

/-- Record the first error of the slice; of the errors of one sclk the lowest page and bit are kept (13 R361). -/
def logGlobal (s : State) (page b : Nat) : State :=
  let g := s.rg (rk 0x09 0x04C)
  if !(bit g 31) || (s.ras.globalAt == s.now &&
      (decide (page < fld g 4 0) || (decide (page = fld g 4 0) && decide (b < fld g 9 5)))) then
    let s1 := s.rgSet (rk 0x09 0x04C) (BitVec.ofNat 32 (0x80000000 + mkFld 4 0 page + mkFld 9 5 b + mkFld 25 10 s.frm.frameNo))
    { s1 with ras := { s1.ras with globalAt := s.now } }
  else s

/-- Record an error: sticky bit, first error of the page, first error of the slice, and the interrupt when ERR_PENDING rises (00 R18-R20;
13 R361), without its trace record. This holds for every error: a single CRC error too sends an `INT` when its bit is unmasked, as R20 says
of any bit, although 02 R76 says that it raises none (DESIGN CHOICE, notes/assumptions/45.md). -/
def logErrCore (s : State) (page b info : Nat) : State :=
  let s1 := logGlobal (logFirst (logSticky s page b) page b info) page b
  if !errPending s page && errPending s1 page then raiseInt s1 page else s1

/-- DBG.CTL.MODE (18_pmu_debug_events.md R474). -/
def debugMode (s : State) : Bool := s.rb (rk 0x10 0x040) 0

/-- A halt condition of DBG.HALT_COND occurs (18 R476). -/
def haltCond (s : State) (b : Nat) : State :=
  if debugMode s && s.rb (rk 0x10 0x048) b then { s with obs := { s.obs with haltPend := true } } else s

/-- Note a pulse of an event source (18 R485). -/
def evtPulse (s : State) (src arg : Nat) : State :=
  { s with obs := { s.obs with pulses := smPut s.obs.pulses (src * 256 + arg) s.now } }

/-- Key of RAS.INJ. -/
def kInj : Nat := rk 0x09 0x08C

/-- An injection is armed for this domain (13 R373). -/
def injArmed (s : State) (dom : Nat) : Bool := s.rb kInj 7 && s.rf kInj 5 0 == dom

/-- Write n words of an SRAM array from word `lo`: marks on them end, and an armed injection plants one in the first (13 R373). -/
def sramWriteN (s : State) (dom sub lo n : Nat) : State :=
  let u := s.ras.upsets.filter fun x => !(x.1 == dom && x.2.1 == sub && decide (lo ≤ x.2.2.1) && decide (x.2.2.1 < lo + n))
  if injArmed s dom then
    { (s.rgFld kInj 7 7 0) with ras := { s.ras with upsets := (dom, sub, lo, s.rb kInj 6) :: u } }
  else { s with ras := { s.ras with upsets := u } }

/-- Write a word of an SRAM array. -/
def sramWrite (s : State) (dom sub word : Nat) : State := sramWriteN s dom sub word 1

/-- A trace record (18 R479). -/
def trcRecord (s : State) (src kind payload : Nat) : BitVec 128 :=
  let run := if s.rb (rk 0x0F 0x040) 0 && !s.rb (rk 0x0F 0x040) 3 then (s.now : Int) - s.obs.pmuTo else 0
  BitVec.ofNat 128 ((((s.rg (rk 0x0F 0x04C)).toNat + run) % 2 ^ 32).toNat + mkFld 47 32 s.frm.frameNo + mkFld 51 48 src + mkFld 55 52 kind + mkFld 127 64 payload)

/-- SRC and KIND of a record as one rank. -/
def trcRank (r : BitVec 128) : Nat := fld r 51 48 * 16 + fld r 55 52

/-- Store a record in the next slot (18 R480). -/
def trcPut (s : State) (r : BitVec 128) : State :=
  let o := s.obs
  let n := if o.trcNow.1 = s.now then o.trcNow.2 + 1 else 1
  let s1 := sramWriteN { s with obs := { o with
      trc := smPut o.trc o.trcWr r, trcCount := min (o.trcCount + 1) 1024, trcWr := (o.trcWr + 1) % 1024, trcNow := (s.now, n) } } 18 4 (2 * o.trcWr) 2
  if s.rb (rk 0x10 0x04C) 1 && decide (1024 ≤ o.trcCount + 1) then
    haltCond (logErrCore { s1 with obs := { s1.obs with trcFull := true } } 0x10 0 (mkFld 15 0 s.frm.frameNo)) 2
  else s1

/-- An event is not written: it counts and is logged (18 R480). -/
def trcLose (s : State) (rank : Nat) : State :=
  let k := rk 0x10 0x05C
  logErrCore (s.rgSet k (satInc (s.rg k) 31 0)) 0x10 1 (mkFld 3 0 (rank / 16) + mkFld 7 4 (rank % 16))

/-- The trace buffer captures nothing of this source: disabled, not named, full, or frozen by fail-stop (18 R478, R480). -/
def trcOff (s : State) (src : Nat) : Bool :=
  !s.rb (rk 0x10 0x04C) 0 || !s.rb (rk 0x10 0x04C) (3 + src) || s.obs.trcFull ||
    (match s.ras.fsAt with | some f => decide (f < s.now) | none => false)

/-- A third event of one sclk: the two lowest in SRC and KIND order are kept (18 R480). -/
def trcCrowd (s : State) (r : BitVec 128) : State :=
  let o := s.obs
  let i2 := (o.trcWr + 1023) % 1024
  let i1 := (o.trcWr + 1022) % 1024
  let r1 := smGetD o.trc i1 0
  let r2 := smGetD o.trc i2 0
  if trcRank r2 ≤ trcRank r then trcLose s (trcRank r)
  else if trcRank r1 ≤ trcRank r then trcLose { s with obs := { o with trc := smPut o.trc i2 r } } (trcRank r2)
  else trcLose { s with obs := { o with trc := smPut (smPut o.trc i1 r) i2 r1 } } (trcRank r2)

/-- Capture an event (18 R478, R480). -/
def trace (s : State) (src kind payload : Nat) : State :=
  if trcOff s src then s
  else if s.obs.trcNow.1 = s.now ∧ 2 ≤ s.obs.trcNow.2 then trcCrowd s (trcRecord s src kind payload)
  else trcPut s (trcRecord s src kind payload)

/-- Record an error (00 R18-R20; 13 R361) and its trace record (18 R478). -/
def logErr (s : State) (page b info : Nat) : State :=
  let s1 := logErrCore s page b info
  if page = 0x10 then s1 else trace s1 1 0 (mkFld 4 0 page + mkFld 9 5 b + mkFld 33 10 info)

/-! ### Performance counters (18 R465-R468) -/

/-- Key of the low word of CNTn, or of the cycle counter for n = 8. -/
def pmuLo (n : Nat) : Nat := if n = 8 then rk 0x0F 0x04C else rk 0x0F (0x084 + 0x10 * n)

/-- Key of the high word. -/
def pmuHi (n : Nat) : Nat := if n = 8 then rk 0x0F 0x050 else rk 0x0F (0x088 + 0x10 * n)

/-- Value of a counter. -/
def pmuVal (s : State) (n : Nat) : Nat := (s.rg (pmuHi n)).toNat * 2 ^ 32 + (s.rg (pmuLo n)).toNat

/-- Set a counter. -/
def pmuSet (s : State) (n v : Nat) : State := (s.rgSet (pmuLo n) (BitVec.ofNat 32 v)).rgSet (pmuHi n) (BitVec.ofNat 32 (v / 2 ^ 32))

/-- A control word of the counters as it is in force: one that is written applies from the next sclk (18 R468, R469). -/
def pmuInForce (s : State) (k : Nat) : Word :=
  match s.obs.pmuWas.find? fun e => e.1 == k && e.2.1 == s.now with | some e => e.2.2 | none => s.rg k

/-- Before a write of a control word: it stays in force to the end of this sclk. -/
def pmuKeep (s : State) (k : Nat) : State :=
  { s with obs := { s.obs with pmuWas := s.obs.pmuWas.filter (fun e => e.2.1 == s.now) ++ [(k, s.now, s.rg k)] } }

/-- CTL.FROZEN holds the counters; in the sclk whose wrap set it they still count, and in that of the write that clears it they do not
(18 R465, R468). -/
def pmuFrozen (s : State) : Bool := bit (pmuInForce s (rk 0x0F 0x040)) 3 && s.obs.frozenAt != some s.now

/-- A counter has wrapped: its error, its record, its pulse, its halt condition and the freeze (18 R468, R476, R478, R485). -/
def pmuWrap (s : State) (n : Nat) : State :=
  let s1 := haltCond (evtPulse (trace (logErr s 0x0F n (mkFld 15 0 s.frm.frameNo)) 4 0 n) 0x09 n) 1
  if s.rb (rk 0x0F 0x040) 2 then
    let s2 := s1.rgFld (rk 0x0F 0x040) 3 3 1
    { s2 with obs := { s2.obs with frozenAt := some s.now } }
  else s1

/-- What a counter wraps at: 64 bits for the cycle counter, else 48 (18 R465). -/
def pmuTop (n : Nat) : Nat := if n = 8 then 2 ^ 64 else 2 ^ 48

/-- Add to a counter; the sum may wrap (18 R468). -/
def pmuAdd (s : State) (n k : Nat) : State :=
  let v := pmuVal s n + k
  let s1 := pmuSet s n (v % pmuTop n)
  if pmuTop n ≤ v then pmuWrap s1 n else s1

/-- Counter i counts this event of this ring: its configuration names the event, is enabled, and lets the ring pass, and the counters are
not cleared in this sclk (18 R467, R469). -/
def pmuCounts (s : State) (i code : Nat) (ring : Option Nat) : Bool :=
  let c := pmuInForce s (rk 0x0F (0x080 + 0x10 * i))
  s.obs.clearedAt != some s.now &&
  decide (fld c 7 0 = code) && bit c 8 && (match ring with | some r => fld c 12 9 == 0 || bit c (9 + r) | none => true) && !pmuFrozen s

/-- Count n occurrences of an event in every programmable counter that names it; `ring` is the ring of the request that caused it. -/
def pmuRing (s : State) (code n : Nat) (ring : Option Nat) : State :=
  if n = 0 then s else (List.range 8).foldl (fun s i => if pmuCounts s i code ring then pmuAdd s i n else s) s

/-- An event without a ring. -/
def pmuEv (s : State) (code n : Nat) : State := pmuRing s code n none

/-- An event caused by a request: one with SPEC = 1 counts for CNET_REQ_IN and CCH_SPEC only (18 R466). -/
def pmuReq (s : State) (code : Nat) (h : BitVec 256) : State :=
  if hSpec h && code != 0x50 && code != 0x42 then s else pmuRing s code 1 (some (hRing h))

/-- Put an S-net message on its way (02 R68, R71). -/
def sendSnet (s : State) (typ arg readyAt : Nat) : State :=
  { s with fab := { s.fab with sOut := s.fab.sOut ++ [{ typ := typ, arg := arg, readyAt := readyAt }] } }

/-- The two beats of an S-net message (02 R68). -/
def snetBeats (typ arg : Nat) : BitVec 16 × BitVec 16 :=
  let b0 := 0x8000 + mkFld 14 11 typ + mkFld 10 0 (arg / 2048)
  let b1 := mkFld 14 4 (arg % 2048)
  let x := fun (w i : Nat) => (w / 16 ^ i) % 16
  let chk := x b0 3 ^^^ x b0 2 ^^^ x b0 1 ^^^ x b0 0 ^^^ x b1 3 ^^^ x b1 2 ^^^ x b1 1
  (BitVec.ofNat 16 b0, BitVec.ofNat 16 (b1 + chk))

/-- The slice is in fail-stop (13 R369). -/
def failed (s : State) : Bool := s.ras.fsAt.isSome

/-- The fail-stop registers: class and count, cause, INFO (13 R366, R369). -/
def failRegs (s : State) (cls page b info : Nat) : State :=
  let st := s.rg (rk 0x09 0x054)
  ((s.rgSet (rk 0x09 0x054) (BitVec.ofNat 32 (1 + mkFld 3 1 cls + mkFld 11 4 (min (fld st 11 4 + 1) 255)))).rgSet (rk 0x09 0x058)
    (BitVec.ofNat 32 (mkFld 4 0 page + mkFld 9 5 b + mkFld 25 10 s.frm.frameNo))).rgSet (rk 0x09 0x05C) (BitVec.ofNat 32 (mkFld 23 0 info))

/-- What stops with LOGIC: the frame engine fails, egress is idle from here on, and every packet, request, burst and access under way is lost
(02 R77; 13 R369). An initialization pass that is cut short is still owed (04 R132, R500). -/
def failUnits (s : State) : State :=
  { s with
    ras := { s.ras with fsAt := some s.now, faultAt := s.now + 2, repairs := [] }
    frm := { s.frm with
      state := .failed, runs := false, haltAt := some s.now, barriers := [], ingress := [], copy := none
      egress := s.frm.egress.filter fun f => decide (f.sclk < s.now) }
    fab := { s.fab with out := [], reqs := [], ints := [], sOut := [] }
    arb := { s.arb with queue := [] }
    thl := { s.thl with flights := [], initAt := none, initDue := s.thl.initDue || s.thl.initAt.isSome } }

/-- Enter fail-stop of class `cls`, caused by error `b` of `page` with `info` (13 R366, R367, R369). An error that arises in fail-stop
enters it no second time. -/
def failStop (s : State) (cls page b info : Nat) : State :=
  if failed s then s
  else
    logErr (sendSnet (failUnits (failRegs s cls page b info)) 7 (s.straps.tile + cls * 256) (s.now + 2)) 0x09 11
      (mkFld 2 0 cls + mkFld 7 3 page + mkFld 12 8 b)

/-- Replace the entry of the request table. -/
def setReq (s : State) (slot : Nat) (r : Req) : State :=
  { s with fab := { s.fab with reqs := smPut s.fab.reqs slot r } }

/-- Free an entry of the request table (02 R48). -/
def freeReq (s : State) (slot : Nat) : State :=
  { s with fab := { s.fab with reqs := smDel s.fab.reqs slot } }

/-- The request in an entry. -/
def getReq (s : State) (slot : Nat) : Option Req := smGet s.fab.reqs slot

/-- The region that the check of a request in the table hit (03 R105). -/
def reqRegion (s : State) (slot : Nat) : Option Region := (getReq s slot).bind (·.rgn)

/-- A request has reached stage 12, seven sclk after its header (02 R66; notes/assumptions/1.md). -/
def pastStages (s : State) (r : Req) : Bool := decide (r.arrived + 7 ≤ s.now)

/-- Note progress of an entry (13 R368). -/
def progressed (s : State) (slot : Nat) : State :=
  match getReq s slot with
  | some r => setReq s slot { r with progress := s.now }
  | none => s

/-- Move an entry to a phase, which is progress. -/
def setPhase (s : State) (slot : Nat) (ph : Phase) : State :=
  match getReq s slot with
  | some r => setReq s slot { r with progress := s.now, phase := ph }
  | none => s

/-- Entries of the request table in use: the requests in it, and those whose answers wait to leave (02 R48; 12 R330, R339). -/
def tableUsed (s : State) : Nat :=
  s.fab.reqs.length + s.fab.out.countP fun o =>
    o.entry && !(s.fab.reqs.any fun e => hSrc e.2.head == hDst o.head && hTxn e.2.head == hTxn o.head)

/-- Complete an entry with `RSP_COMP`: its place is free once the response has left. -/
def finish (s : State) (slot code param at_ : Nat) : State :=
  match getReq s slot with
  | some r => freeReq (answerOpen s r.head r.vc code param at_) slot
  | none => s

/-- The lowest free entry of the request table, if any (02 R48). -/
def freeSlot (s : State) : Option Nat := (List.range 64).find? fun i => (smGet s.fab.reqs i).isNone

/-- The value in the register of key k for a timer or a wake that started at a sclk: a new one applies to those that start after the response
of its write leaves (12 R345; 13 R362; 16 R450; notes/assumptions/42.md). -/
def limitAt (s : State) (k start : Nat) : Nat :=
  match s.ras.limits.find? fun e => e.1 == k && decide (start ≤ e.2.1) with
  | some e => e.2.2
  | none => s.rf k 23 0

/-- FRM.TICK_PERIOD. -/
def period (s : State) : Nat := s.rf (rk 0x01 0x048) 16 0
/-- FRM.REFRESH_RESERVE in force. -/
def reserve (s : State) : Nat := s.frm.reserveNow

/-- Sclk of the precharge that opens a self-timed frame: 16 as for a catch-up round (04 R130, R131). -/
def framePre (s : State) : Nat := if s.frm.selfTimed then 16 else 0

/-- Sclk of the refresh class at the start of the current frame: the window, behind the precharge of a self-timed frame (04 R129, R130). -/
def refreshSpan (s : State) : Nat := framePre s + reserve s / 2

/-- Sclk of [a, b) that lie in [c, d). -/
def overlap (a b c d : Nat) : Nat := min b d - max a c

/-- Sclk of the refresh and guard classes of the current frame from sclk a to the current one, exclusive (01 R22). -/
def closedSclk (s : State) (a : Nat) : Nat :=
  match s.frm.frame0 with
  | some f => overlap a s.now f (f + refreshSpan s) + overlap a s.now (f + s.rf (rk 0x01 0x048) 16 0 - 64) (f + s.rf (rk 0x01 0x048) 16 0)
  | none => 0

/-- FRM.REFRESH_RESERVE as it is written (05 R182). -/
def reserveReg (s : State) : Nat := s.rf (rk 0x01 0x04C) 15 0
/-- SLC.ABI_SEL.LEVEL. -/
def level (s : State) : Nat := s.rf (rk 0x00 0x048) 3 0
/-- RAS.TMO_CNET. -/
def tmoCnet (s : State) : Nat := s.rf (rk 0x09 0x064) 23 0
/-- RAS.TMO_WAIT. -/
def tmoWait (s : State) : Nat := s.rf (rk 0x09 0x068) 23 0
/-- The C-net response timeout of a request sent at a sclk. -/
def cnetLimit (s : State) (start : Nat) : Nat := limitAt s (rk 0x09 0x064) start
/-- The limit of a resource wait or a grant wait that started at a sclk. -/
def waitLimit (s : State) (start : Nat) : Nat := limitAt s (rk 0x09 0x068) start
/-- DIR.FWD_TMO for a message that left at a sclk. -/
def fwdLimit (s : State) (start : Nat) : Nat := limitAt s (rk 0x05 0x04C) start
/-- DIR.BLOCK_LIMIT for a request that entered the blocked queue at a sclk. -/
def blockLimit (s : State) (start : Nat) : Nat := limitAt s (rk 0x05 0x050) start

/-- The ENG domain is on (16 R433). -/
def engOn (s : State) : Bool := match s.pwr.eng with | .on => true | _ => false
/-- The SMC domain is on (16 R434). -/
def smcOn (s : State) : Bool := match s.pwr.smc with | .on => true | _ => false

/-- A cold or warm reset is asserted (16 R440, R441). -/
def inReset (s : State) : Bool :=
  s.pwr.porst || s.pwr.wrst ||
    (match s.pwr.ordered with | some (k, a, _, _) => (k == .warm || k == .cold) && decide (a ≤ s.now) | none => false)
/-- LOGIC is on and out of reset. -/
def logicRuns (s : State) : Bool := s.pwr.logic && !inReset s

/-- A quench is in force (02 R73). -/
def quenched (s : State) : Bool := s.fab.quench.isSome

/-- Tier n's power state. -/
def tier (s : State) (n : Nat) : TierSt :=
  nth s.pwr.tiers n ⟨.off, false, 0, 0, false, false, false, false, false⟩

/-- Replace tier n's power state. -/
def setTier (s : State) (n : Nat) (t : TierSt) : State := { s with pwr := { s.pwr with tiers := s.pwr.tiers.set n t } }

/-- Tier n has failed (04_thallus.md R133). -/
def tierFailed (s : State) (n : Nat) : Bool := s.rb (rk 0x03 0x048) n

end Sys2Proof.Machine
end

