-- ==== Sys2Proof/Machine/Operands.lean ====
section
/-!
DEFINITION. Operand forms of the commands: how a command's packet is made to be the request or message its row names, and how each command
ends. A row that names a kind of request fixes the fields that make it that kind (OPCODE, virtual channel, register, action bits) and leaves
every other field as the packet has it (notes/assumptions/4.md).
-/

namespace Sys2Proof.Machine

/-- The outcome of a command that ran from `s` to `r`: the queue of waiting commands and the straps are none of its business (16 R446), and
the clock does not run back. -/
def ran (s r : State) : Host.Outcome State Fault Refusal :=
  .next { r with pending := s.pending, straps := s.straps, now := max s.now r.now }

/-- The outcome of the release of PORST_N, which reads the good-slice map (16 R443). -/
def ranBoot (s r : State) : Host.Outcome State Fault Refusal :=
  .next { r with pending := s.pending, now := max s.now r.now
                 straps := { s.straps with good := r.straps.good, fused := r.straps.fused } }

/-- A command that names object `i` of `n`: it runs, or stops because the slice has no such object (notes/assumptions/3.md). -/
def runOn (s : State) (what : String) (i n : Nat) (r : State) : Host.Outcome State Fault Refusal :=
  if i < n then ran s r else .fault (.noSuchObject what i)

/-- The packet with its OPCODE. -/
def withOp (p : CPacket) (op : Nat) : CPacket := p.withHead (setFld p.head 6 0 op)

/-- The packet on a virtual channel. -/
def withVc (p : CPacket) (vc : Nat) : CPacket :=
  let on := fun f : CFlit => { f with low := (f.low &&& ~~~0x38#16) ||| (BitVec.ofNat 16 (vc % 8) <<< 3) }
  { first := on p.first, rest := p.rest.map on }

/-- The packet as a REG_RD of a register (03_addressing_regions.md R86). -/
def readOf (p : CPacket) (page ofs : Nat) : CPacket := p.withHead (setFld (setFld p.head 6 0 0x30) 112 96 (page * 4096 + ofs))

/-- The packet as a REG_WR of a register. -/
def writeOf (p : CPacket) (page ofs : Nat) : CPacket := p.withHead (setFld (setFld p.head 6 0 0x31) 112 96 (page * 4096 + ofs))

/-- Set and clear bits of the word a REG_WR carries in PARAM. -/
def withBits (p : CPacket) (on off : List Nat) : CPacket :=
  p.withHead (off.foldl (fun h b => setFld h (160 + b) (160 + b) 0) (on.foldl (fun h b => setFld h (160 + b) (160 + b) 1) p.head))

/-- A REG_WR that asks for actions of a control register and not for others. -/
def actOf (p : CPacket) (page ofs : Nat) (on off : List Nat) : CPacket := withBits (writeOf p page ofs) on off

/-- Opcodes that a row of their own names. -/
def ownRow (op : Nat) : Bool :=
  (decide (0x01 ≤ op) && decide (op ≤ 0x08)) || (decide (0x10 ≤ op) && decide (op ≤ 0x1E)) || (decide (0x20 ≤ op) && decide (op ≤ 0x26)) ||
    op == 0x28 || op == 0x29 || op == 0x30 || op == 0x31 || op == 0x38 || op == 0x39

/-- The packet of the NOP row: `NOP`, or an opcode that no row names, which the check stages refuse (02_fabric_interface.md R75, R76). -/
def nopOf (p : CPacket) : CPacket := if ownRow (hOpcode p.head) then withOp p 0 else p

/-- Offset of word n of the step slots: nine words for each of sixteen slots (10_update_engines.md R288). -/
def slotWordOfs (n : Nat) : Nat := 0x200 + 0x40 * (n / 9) + 4 * (n % 9)

/-- Offset of shadow word n of page SPR: 64 CAM entries, 8 lane entries, and CAM_SEL (14_sparing_rebuild.md R378). -/
def sprWordOfs (n : Nat) : Nat := if n < 64 then 0x100 + 4 * n else if n < 72 then 0x094 + 4 * (n - 64) else 0x04C

/-- Offset of a count word of page PMU: counter n / 2, its high word for odd n (18_pmu_debug_events.md R469). -/
def cntWordOfs (n : Nat) : Nat := 0x084 + 0x10 * (n / 2) + 4 * (n % 2)

/-- Offset of the low word of a wide register: eight counters, then the cycle counter (19_register_pages.md R494). -/
def wideLowOfs (n : Nat) : Nat := if n < 8 then 0x084 + 0x10 * n else 0x04C

/-- A command that names two objects. -/
def runOnTwo (s : State) (wa : String) (a na : Nat) (wb : String) (b nb : Nat) (r : State) : Host.Outcome State Fault Refusal :=
  if a < na then runOn s wb b nb r else .fault (.noSuchObject wa a)

end Sys2Proof.Machine
end

