-- ==== Sys2Proof/Machine/Region.lean ====
section
/-!
DEFINITION. Fabric addresses, the cached-space home, the region table and its lookups (03_addressing_regions.md R78-R99).
-/

namespace Sys2Proof.Machine

/-- The good tiles in ascending order (03 R82). -/
def goodTiles (s : State) : List Nat := (List.range 256).filter fun i => s.straps.good.getLsbD i

/-- Home tile of a cached line (03 R82); none on a chip without good slices. -/
def cachedHome (good : List Nat) (pa : Nat) : Option Nat :=
  let x := (pa % 2 ^ 52) / 128
  let f := (x % 65536) ^^^ ((x / 65536) % 65536) ^^^ ((x / 2 ^ 32) % 0x2000)
  good[(f * good.length) / 65536]?

/-- The region two table words give. -/
def mkRegion (bound attr : Word) : Region :=
  { base := fld bound 14 0, limit := fld bound 30 16, valid := bit bound 31
    cls := fld attr 0 0, mode := fld attr 2 1, secure := bit attr 3, mirror := bit attr 4
    perms := fld attr 19 8, fmt := fld attr 28 24 }

/-- Region n of the active copy. -/
def actRegion (s : State) (n : Nat) : Region :=
  mkRegion (s.rg (rk 0x02 (0x300 + 8 * n))) (s.rg (rk 0x02 (0x304 + 8 * n)))

/-- Region n of the shadow copy. -/
def shdRegion (s : State) (n : Nat) : Region :=
  mkRegion (s.rg (rk 0x02 (0x100 + 8 * n))) (s.rg (rk 0x02 (0x104 + 8 * n)))

/-- The region covers this 4 KiB granule. -/
def Region.covers (r : Region) (g : Nat) : Bool := r.valid && decide (r.base ≤ g) && decide (g ≤ r.limit)

/-- Granules of a region. -/
def Region.size (r : Region) : Nat := r.limit + 1 - r.base

/-- The granule lies in the shadow range of a mirror region (03 R92). -/
def Region.shadows (r : Region) (g : Nat) : Bool :=
  r.valid && r.mirror && decide (r.limit < g) && decide (g ≤ r.limit + r.size)

/-- Last granule a region occupies, its shadow range counted. -/
def Region.top (r : Region) : Nat := if r.mirror then r.limit + r.size else r.limit

/-- Permission bit of a ring: 0 R, 1 W, 2 X (03 R90). -/
def Region.perm (r : Region) (ring which : Nat) : Bool := r.perms.testBit (3 * ring + which)

/-- The number of the active region that a granule hits (03 R93). -/
def findRegion (s : State) (g : Nat) : Option Nat := (List.range 64).find? fun n => (actRegion s n).covers g

/-- The region that a granule hits under the active copy. -/
def regionAt (s : State) (g : Nat) : Option Region := (findRegion s g).map (actRegion s)

/-- The region that a request for pinned space hits (03 R93). -/
def hitRegion (s : State) (h : BitVec 256) : Option Region := if hSpace h = 0 then regionAt s (hOffset h / 4096) else none

/-- Copy B of a line in a mirror region (04_thallus.md R137): LINE of the twin. -/
def twinLine (r : Region) (line : Nat) : Nat :=
  let n := r.size
  let i := line / 32 - r.base
  let d := if n = 1 then 0 else if n % 16 = 15 then 2 else 1
  (r.limit + 1 + (i + d) % n) * 32 + line % 32

/-- The twin of a line that lies in this region, when it is a mirror region (04 R138). -/
def regionTwin (r : Option Region) (line : Nat) : Option Nat := r.bind fun r => if r.mirror then some (twinLine r line) else none

/-- The twin of a line when the active table puts it in a mirror region (04 R138). -/
def mirrorTwin (s : State) (line : Nat) : Option Nat := regionTwin (regionAt s (line / 32)) line

/-- The line lies in the shadow range of some active mirror region. -/
def inShadow (s : State) (line : Nat) : Bool := (List.range 64).any fun n => (actRegion s n).shadows (line / 32)

end Sys2Proof.Machine
end

