-- ==== Sys2Proof/Machine/Fabric.lean ====
section
/-!
DEFINITION. The C-net check stages 1-10, the flit CRC, credits and the sending of packets and S-net messages
(02_fabric_interface.md; 03_addressing_regions.md R79-R99; 01_architecture.md R26).
-/

namespace Sys2Proof.Machine

/-- CRC of a flit: the covered bits highest first, polynomial 0x1021, initial value 0xFFFF (02 R35). -/
def flitCrc (bits : List Bool) : BitVec 16 :=
  BitVec.ofNat 16 (bits.foldl (fun c b =>
    let c' := (2 * c) % 65536
    if xor b (c.testBit 15) then c' ^^^ 0x1021 else c') 0xFFFF)

/-- Bits of a word, highest first. -/
def bitsDown {n : Nat} (w : BitVec n) : List Bool := (List.range n).map fun i => w.getLsbD (n - 1 - i)

/-- CRC of a C-net flit over sideband [15:0] and the data lanes. -/
def cnetCrc (side : BitVec 16) (data : BitVec 256) : BitVec 16 := flitCrc (bitsDown side ++ bitsDown data)

/-- The sideband word of a flit on the lanes (02 R35, R42). -/
def cnetSide (f : CFlit) : BitVec 32 := (cnetCrc f.low f.data ^^^ f.crcDiff) ++ f.low

/-- The flit that lanes with this data and sideband word carry. -/
def ofLanes (data : BitVec 256) (side : BitVec 32) : CFlit :=
  ⟨data, side.extractLsb' 0 16, side.extractLsb' 16 16 ^^^ cnetCrc (side.extractLsb' 0 16) data⟩

/-- CRC of a B-net flit over sideband [47:0] and the data lanes. -/
def bnetCrc (side : BitVec 48) (data : BitVec 1024) : BitVec 16 := flitCrc (bitsDown side ++ bitsDown data)

/-! ### The lane map of the B-net (14_sparing_rebuild.md R384, R385) -/

/-- Set one of the 1,088 lanes of a direction: data lane, or sideband bit from lane 1,024 on (R384). -/
def setLane (d : BitVec 1024 × BitVec 64) (lane : Nat) (v : Bool) : BitVec 1024 × BitVec 64 :=
  if lane < 1024 then ((d.1 &&& ~~~(1#1024 <<< lane)) ||| ((BitVec.ofNat 1024 (b2n v)) <<< lane), d.2)
  else (d.1, (d.2 &&& ~~~(1#64 <<< (lane - 1024))) ||| ((BitVec.ofNat 64 (b2n v)) <<< (lane - 1024)))

/-- The value of a lane. -/
def getLane (d : BitVec 1024 × BitVec 64) (lane : Nat) : Bool := if lane < 1024 then d.1.getLsbD lane else d.2.getLsbD (lane - 1024)

/-- Lanes that spares carry in the active lane map, with the spare: `lo` is 0 for ingress and 16 for egress (R384). -/
def spareLanes (s : State) (lo : Nat) : List (Nat × Nat) :=
  (List.range 8).filterMap fun n =>
    let w := smGetD s.spr.laneAct n 0
    if bit w (lo + 15) then some (fld w (lo + 10) lo, n) else none

/-- The active lanes of an arriving flit: a lane that a spare carries is sampled from the spare alone (R384). -/
def steerIn (s : State) (f : BFlit) : BitVec 1024 × BitVec 64 :=
  (spareLanes s 0).foldl (fun d e => setLane d e.1 (f.spare.getLsbD e.2)) (f.data, f.side)

/-- A flit as it is driven: a lane that a spare carries is driven on the spare alone (R384). -/
def steerOut (s : State) (at_ : Nat) (data : BitVec 1024) (side : BitVec 64) : EgressFlit :=
  let m := spareLanes s 16
  let d := m.foldl (fun d e => setLane d e.1 false) (data, side)
  ⟨at_, d.1, d.2, BitVec.ofNat 8 ((m.filter fun e => getLane (data, side) e.1).map fun e => 2 ^ e.2).sum⟩

/-- Lanes of an idle flit that read 1, the lowest first, VALID aside (R385). -/
def idleOnes (d : BitVec 1024 × BitVec 64) : List Nat :=
  if d.1 = 0 ∧ d.2 &&& ~~~1#64 = 0 then []
  else ((List.range 1088).filter fun l => l != 1024 && getLane d l)

/-! ### Opcodes -/

/-- What R55 lists for a request opcode. -/
structure OpInfo where
  /-- Allowed on MGMT as well as on REQ. -/
  mgmt : Bool
  /-- SIZE codes. -/
  sizes : List Nat
  /-- Refused at behaviour level 1. -/
  lvl2 : Bool
  /-- A slice serves it. -/
  served : Bool
deriving DecidableEq, Repr

/-- Word atomics of 4, 8 and 16 bytes (02 R55). -/
def isWordAtomic (op : Nat) : Bool := [0x10, 0x11, 0x12, 0x15, 0x16, 0x19, 0x1A, 0x1B, 0x1C].contains op

/-- The opcode table of R55. -/
def opInfo (op : Nat) : Option OpInfo :=
  if isWordAtomic op then some ⟨false, [2, 3, 4], false, true⟩
  else match op with
    | 0x00 => some ⟨true, [0], false, true⟩
    | 0x01 => some ⟨false, [0, 1, 2, 3, 4, 5, 6, 7], false, true⟩
    | 0x02 => some ⟨false, [7], false, true⟩
    | 0x03 => some ⟨false, [7], false, true⟩
    | 0x04 => some ⟨false, [0, 1, 2, 3, 4, 5, 6, 7], true, true⟩
    | 0x05 => some ⟨false, [0, 1, 2, 3, 4, 5, 6], false, true⟩
    | 0x06 => some ⟨false, [7], false, true⟩
    | 0x07 => some ⟨false, [7], false, true⟩
    | 0x08 => some ⟨false, [7], false, true⟩
    | 0x13 => some ⟨false, [2], false, true⟩
    | 0x14 => some ⟨false, [2], true, true⟩
    | 0x17 => some ⟨false, [2], false, true⟩
    | 0x18 => some ⟨false, [2], false, true⟩
    | 0x1D => some ⟨false, [6], true, true⟩
    | 0x1E => some ⟨false, [6], true, true⟩
    | 0x20 => some ⟨false, [7], false, true⟩
    | 0x21 => some ⟨false, [7], false, true⟩
    | 0x22 => some ⟨false, [7], false, true⟩
    | 0x23 => some ⟨false, [7], false, true⟩
    | 0x24 => some ⟨false, [7], false, true⟩
    | 0x25 => some ⟨false, [7], false, true⟩
    | 0x26 => some ⟨false, [7], true, true⟩
    | 0x28 => some ⟨false, [7], false, true⟩
    | 0x29 => some ⟨false, [7], false, true⟩
    | 0x30 => some ⟨true, [2], false, true⟩
    | 0x31 => some ⟨true, [2], false, true⟩
    | 0x38 => some ⟨false, [0], false, false⟩
    | 0x39 => some ⟨false, [0], false, false⟩
    | _ => none

/-- Payload flits of a request (02 R55, R59). -/
def payloadFlits (op size : Nat) : Nat :=
  if op = 0x05 then (if size ≤ 5 then 1 else 2)
  else if op = 0x06 ∨ op = 0x07 ∨ op = 0x29 then 4
  else if op = 0x1D ∨ op = 0x1E then 2
  else if 0x10 ≤ op ∧ op ≤ 0x1C then 1
  else 0

/-- Set/way maintenance. -/
def isSetWay (op : Nat) : Bool := op == 0x23 || op == 0x24 || op == 0x25
/-- Maintenance by address, zeroing included. -/
def isMaintPa (op : Nat) : Bool := op == 0x20 || op == 0x21 || op == 0x22 || op == 0x26
/-- Atomics other than `AT_VACC`. -/
def isAtomic (op : Nat) : Bool := decide (0x10 ≤ op) && decide (op ≤ 0x1D)

/-- PARAM bits an opcode defines (02 R59, R60; 06 R194). -/
def paramMask (op : Nat) : Nat :=
  if op = 0x15 ∨ op = 0x16 then 1
  else if op = 0x1E then 0xFFFF3F
  else if isSetWay op then 0xF01FF
  else if op = 0x28 then 0x01FFFFFFFFFFFFFF
  else if op = 0x31 then 0xFFFFFFFF
  else 0

/-- Header bits at fault at stage 7 of R65: reserved fields, RESP, R53, alignment, address and PARAM bits (02 R65, R75, R76; 03 R79;
06 R195). -/
def stage7Bits (h : BitVec 256) : List Nat :=
  let op := hOpcode h
  let p := hParam h
  let space := hSpace h
  let rsv := ([7] ++ [22, 23] ++ (List.range 5).map (· + 59) ++ (List.range 5).map (· + 91) ++ (List.range 8).map (· + 152) ++
    (List.range 32).map (· + 224)).filter fun i => bit h i
  let resp := ([8, 9, 10, 11]).filter fun i => bit h i
  let spec := if hSpec h && !((op == 1 || op == 2 || op == 3 || op == 4) && hSrcType h == 0) then [15] else []
  let kind := if hKind h = 3 || (hKind h = 0 && !(op == 1 || op == 2)) || ((hKind h == 2) != (op == 0x28 || op == 0x29)) then [17] else []
  let addrBits := fun (lo n : Nat) => ((List.range n).map (· + lo)).filter fun i => bit h (96 + i)
  let addr :=
    if isSetWay op then (addrBits 0 56).map (· + 96)
    else
      (if 3 ≤ space then [148] else []) ++
      (if space = 0 then (addrBits 27 2).map (· + 96) else []) ++
      (if space = 2 then (addrBits 17 12).map (· + 96) else []) ++
      (if op = 0x1E then (addrBits 0 29).map (· + 96) else []) ++
      ((addrBits 0 (hSize h)).map (· + 96))
  let par := (lowestBit 64 (p &&& ((2 ^ 64 - 1) ^^^ paramMask op))).toList.map (· + 160)
  let vacc := if op = 0x1E && fld h 183 182 == 3 then [182] else []
  let pull :=
    if op = 0x28 then
      let lines := p % 65536; let tiles := (p / 2 ^ 16) % 1024; let shape := (p / 2 ^ 26) % 8; let fmt := (p / 2 ^ 29) % 8
      let abort := p.testBit 56
      (if (lines == 0) != abort then [160] else []) ++
      (if (tiles == 0) != (fmt == 0 || abort) then [176] else []) ++
      (if shape = 7 || (shape != 0 && (fmt == 0 || abort)) then [186] else []) ++
      (if 5 ≤ fmt then [189] else []) ++
      (if !abort && (p / 2 ^ 48) % 256 != 0 then [208] else [])
    else []
  rsv ++ resp ++ spec ++ kind ++ addr ++ par ++ vacc ++ pull

/-- A refusal at a check stage: code, the record it makes (page, bit, INFO), and the sclk of the answer after the header's. -/
structure Nack where
  /-- Response code. -/
  code : Nat
  /-- Error record. -/
  err : Option (Nat × Nat × Nat)
  /-- The answer's delay under R66. -/
  delay : Nat
deriving DecidableEq, Repr

/-- INFO of UNSUP_OP, UNSUP_RX3 and MISROUTE (02 R76). -/
def infoOp (h : BitVec 256) : Nat := mkFld 6 0 (hOpcode h) + mkFld 16 7 (hSrcId h) + mkFld 18 17 (hSrcType h)

/-- INFO of MALFORMED. -/
def infoMal (h : BitVec 256) (vc : Nat) : Nat := mkFld 6 0 (hOpcode h) + mkFld 9 7 vc

/-- INFO of RSVD_FIELD for a C-net packet whose lowest bit at fault is `b`. -/
def infoRsv (h : BitVec 256) (b : Nat) : Nat := mkFld 6 0 (hOpcode h) + mkFld 14 7 b

/-- INFO of the RGN records for pinned space (03 R109). -/
def infoRgn (h : BitVec 256) : Nat := mkFld 6 0 (hOpcode h) + mkFld 8 7 (hRing h) + mkFld 9 9 (b2n (hS h)) + mkFld 23 10 (fld h 122 109)

/-- INFO of the RGN records for register space. -/
def infoReg (h : BitVec 256) : Nat := mkFld 6 0 (hOpcode h) + mkFld 8 7 (hRing h) + mkFld 9 9 (b2n (hS h)) + mkFld 23 10 (fld h 112 99)

/-- Stages 3-7 of R65. -/
def checkForm (s : State) (h : BitVec 256) (vc : Nat) : Option Nack :=
  let op := hOpcode h
  let info := opInfo op
  if 0x60 ≤ op then some ⟨nackUnsup, some (0, 1, infoOp h), 5⟩
  else if op < 0x40 ∧ !(match info with | some i => i.served | none => false) then some ⟨nackUnsup, some (0, 0, infoOp h), 5⟩
  else
    match info with
    | none => some ⟨nackRsvd, some (0, 3, infoMal h vc), 5⟩
    | some i =>
      if vc = 4 ∧ !i.mgmt then some ⟨nackRsvd, some (0, 3, infoMal h vc), 5⟩
      else if level s = 1 ∧ (i.lvl2 || (op == 0x28 && fld h 191 189 != 0)) then some ⟨nackUnsup, some (0, 0, infoOp h), 5⟩
      else if !i.sizes.contains (hSize h) then some ⟨nackUnsup, some (0, 0, infoOp h), 5⟩
      else
        match (stage7Bits h).foldl (fun a b => some (match a with | some x => min x b | none => b)) none with
        | some b => some ⟨nackRsvd, some (0, 2, infoRsv h b), 5⟩
        | none => none

/-- Stage 8 of R65: the packet names this slice and homes here (03 R80, R82, R83). -/
def checkHome (s : State) (h : BitVec 256) : Bool :=
  hDst h == own s &&
  (isSetWay (hOpcode h) ||
    (if hSpace h = 1 then cachedHome (goodTiles s) (hAddr h) == some s.straps.tile
     else fld h 147 133 == s.straps.chip && fld h 132 125 == s.straps.tile))

/-- The opcode may address the space (03 R88). -/
def spaceOk (op space : Nat) : Bool :=
  if op = 0 then true
  else if op = 0x30 ∨ op = 0x31 then space == 2
  else if op = 0x1E ∨ op = 0x28 ∨ op = 0x29 then space == 0
  else if isSetWay op then true
  else space == 0 || space == 1

/-- What region mode says of a pinned request (01 R26). -/
inductive ModeAns where
  | allow | refuse | noEffect
deriving DecidableEq, Repr

/-- Region mode check (01 R26). -/
def modeCheck (op kind mode : Nat) : ModeAns :=
  if mode = 1 then (if op = 0x28 ∨ op = 0x29 then .refuse else .allow)
  else if isMaintPa op then .noEffect
  else if op = 0x28 ∨ op = 0x29 then .allow
  else if mode = 2 then
    (if kind = 0 then .refuse
     else if op = 1 ∨ op = 5 ∨ op = 6 ∨ isAtomic op then .allow else .refuse)
  else .refuse

/-- Ring permissions a request needs besides X: R and W (03 R96). -/
def needRW (op kind : Nat) : Bool × Bool :=
  if op = 1 ∨ op = 2 then (kind != 0, false)
  else if op = 4 then (true, false)
  else if op = 3 then (true, true)
  else if op = 5 ∨ op = 6 then (false, true)
  else if isAtomic op then (true, true)
  else if op = 0x20 then (true, false)
  else if op = 0x21 ∨ op = 0x22 ∨ op = 0x26 then (false, true)
  else if op = 0x28 then (true, false)
  else if op = 0x29 then (false, true)
  else (false, false)

/-- Steps c-g of R97 for a pinned request; `span` is the number of bytes of a stream's range. -/
def checkPinned (s : State) (h : BitVec 256) (span : Nat) : Option Nack :=
  let op := hOpcode h
  let ofs := hOffset h
  match regionAt s (ofs / 4096) with
  | none => some ⟨nackRange, some (2, 0, infoRgn h), 7⟩
  | some r =>
    if !r.covers ((ofs + span - 1) / 4096) then some ⟨nackRange, some (2, 0, infoRgn h), 7⟩
    else if r.secure && !hS h then some ⟨nackSec, some (2, 3, infoRgn h), 7⟩
    else
      match modeCheck op (hKind h) r.mode with
      | .refuse => some ⟨nackPerm, some (2, 1, infoRgn h), 7⟩
      | .noEffect => some ⟨ok, none, 7⟩
      | .allow =>
        let (nr, nw) := needRW op (hKind h)
        let rOk := r.perm (hRing h) 0 && !(op == 0x28 && level s == 1 && r.fmt != 0)
        if (nr && !rOk) || (nw && !r.perm (hRing h) 1) then some ⟨nackPerm, some (2, 1, infoRgn h), 7⟩
        else if hKind h = 0 && !r.perm (hRing h) 2 then some ⟨nackNx, some (2, 2, infoRgn h), 7⟩
        else none

/-- PMU.USER_EN lets the ring read this counter word (18 R470). -/
def pmuUserOk (s : State) (ring ofs : Nat) : Bool :=
  let u := s.rg (rk 0x0F 0x048)
  bit u ring &&
    (if ofs = 0x04C ∨ ofs = 0x050 then bit u 4
     else if inArr ofs 0x084 16 8 || inArr ofs 0x088 16 8 then bit u (5 + (ofs - 0x080) / 16)
     else false)

/-- Step h of R97: register space (03 R87). -/
def checkReg (s : State) (h : BitVec 256) : Option Nack :=
  let page := fld h 112 108
  let ofs := fld h 107 96
  let ring := hRing h
  if 0x12 ≤ page then some ⟨nackRange, none, 7⟩
  else if page = 0x0D then
    if !hS h then some ⟨nackSec, some (2, 3, infoReg h), 7⟩
    else if ring ≠ 0 then some ⟨nackPerm, some (2, 1, infoReg h), 7⟩ else none
  else
    let okRing :=
      if page = 0x0C ∧ 0x040 ≤ ofs then s.rb (rk 0x02 0x048) ring
      else if page = 0x0F ∧ 0x040 ≤ ofs ∧ hOpcode h = 0x30 then ring == 0 || pmuUserOk s ring ofs
      else ring == 0
    if okRing then none else some ⟨nackPerm, some (2, 1, infoReg h), 7⟩

/-- Bytes of the range a pinned request names from ADDR (03 R94). -/
def spanOf (h : BitVec 256) : Nat :=
  if hOpcode h = 0x28 ∧ !bit h 216 then 128 * (hParam h % 65536) else 1

/-- Stage 10 of R65: the steps of R97 in order. -/
def checkSpace (s : State) (h : BitVec 256) : Option Nack :=
  let op := hOpcode h
  let space := hSpace h
  if !spaceOk op space then some ⟨nackRange, some (2, 4, mkFld 6 0 op + mkFld 10 7 space), 7⟩
  else if isSetWay op ∨ op = 0 then none
  else if space = 1 then
    if hSrcChip h ≠ s.straps.chip then some ⟨nackRange, some (2, 5, mkFld 6 0 op + mkFld 21 7 (hSrcChip h)), 7⟩ else none
  else if space = 2 then checkReg s h
  else if op = 0x1E then none
  else checkPinned s h (spanOf h)

/-- The packet answers an open request of this tuple (02 R51, R54). -/
def answersTuple (h : BitVec 256) (o : OutPkt) : Bool :=
  o.entry && hDst o.head == hSrc h && hTxn o.head == hTxn h

/-- Stage 9: the tuple of an open request, in the table or with its answer still waiting to leave (02 R54). -/
def isDuplicate (s : State) (h : BitVec 256) : Bool :=
  s.fab.reqs.any (fun e => hTuple e.2.head == hTuple h) || s.fab.out.any (answersTuple h)

/-- Give a stage's refusal: its record and its answer, header sclk `t0`. -/
def refuse (s : State) (h : BitVec 256) (vc t0 : Nat) (n : Nack) : State :=
  let s1 := match n.err with | some (p, b, i) => logErr s p b i | none => s
  answer s1 h vc n.code 0 (t0 + n.delay)

/-! ### Credits and sending -/

/-- Nothing of REQ class moves: a quench is in force since two sclk, or was released less than two sclk ago (02 R73, R74). -/
def reqBarred (s : State) : Bool :=
  match s.fab.quench with
  | some q => decide (q + 2 ≤ s.now)
  | none => decide (0 < s.fab.release) && decide (s.now < s.fab.release + 2)

/-- The arbiter does not see this request: it came on REQ and reached stage 12 while the quench was in force (02 R73, R74; 17 R462;
notes/assumptions/14.md). -/
def quenchHides (s : State) (r : Req) : Bool := reqBarred s && r.vc == 0 && decide (s.fab.quenchAt + 2 ≤ r.arrived + 7)

/-- The port shell serves the C-net: LOGIC is off, or retention has been entered (16 R423, R436). -/
def shellServes (s : State) : Bool :=
  !s.pwr.logic || (match s.pwr.retainAt with | some r => decide (r + 1 ≤ s.now) | none => false)

/-- The shell answers in the place of LOGIC, as the shell of a fused-off slice always does (00 R17; 16 R423). -/
def byShell (s : State) : Bool := s.straps.fused || shellServes s

/-- The shell holds an answer that could leave but for the credit (16 R423). -/
def shellStuck (s : State) : Bool :=
  byShell s && match s.fab.out.head? with | some o => decide (o.readyAt ≤ s.now) && nth s.fab.credHeld o.vc 0 == 0 | none => false

/-- Credits may be returned for this channel: REQ credits are withheld in a quench and while the request table is full (02 R48, R73), REQ
and MGMT credits while the shell holds an answer for want of a credit (16 R423). In fail-stop every channel's are returned (02 R77). -/
def mayReturn (s : State) (vc : Nat) : Bool :=
  if failed s then true
  else if (vc = 0 ∨ vc = 4) ∧ shellStuck s = true then false
  else if vc = 0 then !reqBarred s && decide (tableUsed s < 64)
  else true

/-- Return one owed credit in sclk `at_`, the lowest channel first (02 R46). -/
def returnOne (s : State) (at_ : Nat) : State :=
  match (List.range 5).find? fun v => decide (0 < nth s.fab.credOwed v 0) && mayReturn s v with
  | none => s
  | some v =>
    { s with fab := { s.fab with
        credOwed := s.fab.credOwed.set v (nth s.fab.credOwed v 0 - 1)
        credBack := s.fab.credBack.set v (nth s.fab.credBack v 0 + 1)
        credOut := ((at_, v) :: s.fab.credOut).take 16 } }

/-- Return owed credits, at most one per sclk since the last return (02 R46). -/
def returnCredits (s : State) : State :=
  let owed := s.fab.credOwed.foldl (· + ·) 0
  let n := min owed (s.now - s.fab.credAt)
  let s1 := (List.range n).foldl (fun s i => returnOne s (s.now + 1 + i - n)) s
  { s1 with fab := { s1.fab with credAt := max s1.fab.credAt s1.now } }

/-- Owe the credits of a packet's flits on a channel once it has been sunk. -/
def oweCredits (s : State) (vc n : Nat) : State :=
  { s with fab := { s.fab with credOwed := s.fab.credOwed.set vc (nth s.fab.credOwed vc 0 + n) } }

/-- The packet goes to the slice's own SMC, over its local port (15 R395). -/
def toSmc (s : State) (p : OutPkt) : Bool := hDst p.head == (3, s.straps.tile, s.straps.chip)

/-- Order of the channels among packets that became ready in one sclk (02 R499). -/
def vcRank : Nat → Nat | 2 => 0 | 3 => 1 | 1 => 2 | _ => 3

/-- The slice may send this packet on its lanes now: ready, credits held, and no quench bars REQ (02 R73, R499). -/
def sendable (s : State) (p : OutPkt) : Bool :=
  decide (p.readyAt ≤ s.now) && decide (1 + p.payload.length ≤ nth s.fab.credHeld p.vc 0) && !(p.vc == 0 && reqBarred s) && !toSmc s p

/-- Packet a goes before packet b at a packet boundary; a stands earlier in the queue (02 R499). -/
def before (a b : OutPkt) : Bool :=
  if a.vc == 4 && b.vc != 4 then true
  else if b.vc == 4 && a.vc != 4 then false
  else if a.readyAt != b.readyAt then decide (a.readyAt < b.readyAt)
  else decide (vcRank a.vc ≤ vcRank b.vc)

/-- Packets that stand for a choice: the shell sends its answers one at a time in the order of arrival (16 R423). -/
def waitingOut (s : State) : List (OutPkt × Nat) := if byShell s then s.fab.out.zipIdx.take 1 else s.fab.out.zipIdx

/-- The packet R499 chooses, if one may be sent. -/
def choosePacket (s : State) : Option (Nat × OutPkt) :=
  ((waitingOut s).filter fun e => sendable s e.1).foldl
    (fun a e => match a with
      | none => some (e.2, e.1)
      | some (i, p) => if before p e.1 then some (i, p) else some (e.2, e.1)) none

/-- Send a chosen packet: header at the current sclk, its flits on the sclk that follow (02 R43, R499). -/
def putOnLanes (s : State) (i : Nat) (p : OutPkt) : State :=
  let n := 1 + p.payload.length
  { s with fab := { s.fab with
      out := s.fab.out.eraseIdx i
      lanes := some (s.now, p)
      laneFree := s.now + n
      credHeld := s.fab.credHeld.set p.vc (nth s.fab.credHeld p.vc 0 - n) } }

/-- The flits of a packet of the slice's own (02 R42-R44). -/
def OutPkt.flits (o : OutPkt) : List CFlit := (mkPacket o.vc o.head o.payload).flits

/-- What the C-net output lanes carry in sclk x of the last packet and of the credits returned since: a flit of the packet or an idle one, with
the credit of that sclk on CRV and CRVC, and its CRC (02 R42, R45, R46). -/
def laneFlit (s : State) (x : Nat) : CFlit :=
  let f : CFlit := ((s.fab.lanes.bind fun e => if e.1 ≤ x then e.2.flits[x - e.1]? else none)).getD ⟨0, 0, 0⟩
  match s.fab.credOut.find? fun c => c.1 == x with
  | some c => { f with low := f.low ||| 0x100#16 ||| (BitVec.ofNat 16 (c.2 % 8) <<< 9) }
  | none => f

/-- The next hop returns one credit of a channel (R45). -/
def creditIn (s : State) (vc : Nat) : State :=
  if inReset s then s else { s with fab := { s.fab with credHeld := s.fab.credHeld.set vc (nth s.fab.credHeld vc 0 + 1) } }

/-- Rank of S-net messages: FAULT, BAR_ARRIVE, WAKE_REQ (02 R71). -/
def snetRank (typ : Nat) : Nat := if typ = 7 then 0 else if typ = 2 then 1 else 2

/-- The S-net message that leaves next, if one is ready. -/
def chooseSnet (s : State) : Option (Nat × SMsg) :=
  (s.fab.sOut.zipIdx.filter fun e => decide (e.1.readyAt ≤ s.now)).foldl
    (fun a e => match a with
      | none => some (e.2, e.1)
      | some (i, m) => if snetRank m.typ ≤ snetRank e.1.typ then some (i, m) else some (e.2, e.1)) none

/-- Start an S-net message: two beats, so the output is free again two sclk later (02 R68). -/
def putOnSnet (s : State) (i : Nat) (m : SMsg) : State :=
  { s with fab := { s.fab with sOut := s.fab.sOut.eraseIdx i, sLanes := some (s.now, m), sFree := s.now + 2 } }

end Sys2Proof.Machine
end

