-- ==== Sys2Proof/Machine/Float.lean ====
section
/-!
DEFINITION. Exact values, the element encodings and their rounding (07_weight_decode.md R208, R215, R216; 10_update_engines.md R279, R291).
-/

namespace Sys2Proof.Machine

/-- An exact value: NaN, an infinity, or (-1)^neg * num / den * 2^e with den > 0. -/
inductive Val where
  | nan
  | inf (neg : Bool)
  | fin (neg : Bool) (num den : Nat) (e : Int)
deriving DecidableEq, Repr

/-- Positive zero. -/
def Val.zero : Val := .fin false 0 1 0

/-- The integer n times 2^e. -/
def Val.ofInt (n : Int) (e : Int) : Val := .fin (decide (n < 0)) n.natAbs 1 e

/-- The value is NaN. -/
def Val.isNan : Val → Bool | .nan => true | _ => false
/-- The value is an infinity. -/
def Val.isInf : Val → Bool | .inf _ => true | _ => false
/-- The value is a zero. -/
def Val.isZero : Val → Bool | .fin _ 0 _ _ => true | _ => false
/-- Sign of a value, NaN counting as positive. -/
def Val.sign : Val → Bool | .nan => false | .inf s => s | .fin s _ _ _ => s

/-- Negation. -/
def Val.neg : Val → Val
  | .nan => .nan
  | .inf s => .inf !s
  | .fin s n d e => .fin (!s) n d e

/-- Exact product, with the IEEE 754 rules for zeros, infinities and NaN (R215). -/
def Val.mul : Val → Val → Val
  | .nan, _ => .nan
  | _, .nan => .nan
  | .inf a, .inf b => .inf (a ^^ b)
  | .inf a, .fin b n _ _ => if n = 0 then .nan else .inf (a ^^ b)
  | .fin a n _ _, .inf b => if n = 0 then .nan else .inf (a ^^ b)
  | .fin a n d e, .fin b n' d' e' => .fin (a ^^ b) (n * n') (d * d') (e + e')

/-- Exact quotient. -/
def Val.div : Val → Val → Val
  | .nan, _ => .nan
  | _, .nan => .nan
  | .inf _, .inf _ => .nan
  | .inf a, .fin b _ _ _ => .inf (a ^^ b)
  | .fin a _ _ _, .inf b => .fin (a ^^ b) 0 1 0
  | .fin a n d e, .fin b n' d' e' =>
    if n' = 0 then (if n = 0 then .nan else .inf (a ^^ b)) else .fin (a ^^ b) (n * d') (d * n') (e - e')

/-- Signed numerator of a finite value over den at exponent `e0`, `e0` at most its own. -/
def scaledNum (neg : Bool) (num : Nat) (e e0 : Int) : Int :=
  let m : Int := (num * 2 ^ (e - e0).toNat : Nat)
  if neg then -m else m

/-- Exact sum, with the IEEE 754 rules: opposite infinities give NaN, an exact zero of opposite signs +0. -/
def Val.add : Val → Val → Val
  | .nan, _ => .nan
  | _, .nan => .nan
  | .inf a, .inf b => if a = b then .inf a else .nan
  | .inf a, .fin _ _ _ _ => .inf a
  | .fin _ _ _ _, .inf b => .inf b
  | .fin a n d e, .fin b n' d' e' =>
    let e0 := min e e'
    let t := scaledNum a (n * d') e e0 + scaledNum b (n' * d) e' e0
    if t = 0 then .fin (n == 0 && n' == 0 && a && b) 0 1 0 else .fin (decide (t < 0)) t.natAbs (d * d') e0

/-- Exact difference. -/
def Val.sub (a b : Val) : Val := a.add b.neg

/-- a < b for values that are not NaN; -0 and +0 are equal. -/
def Val.lt (a b : Val) : Bool :=
  match a, b with
  | .nan, _ => false
  | _, .nan => false
  | .inf s, .inf s' => s && !s'
  | .inf s, .fin _ _ _ _ => s
  | .fin _ _ _ _, .inf s => !s
  | .fin a n d e, .fin b n' d' e' =>
    let e0 := min e e'
    decide (scaledNum a (n * d') e e0 < scaledNum b (n' * d) e' e0)

/-- Magnitude. -/
def Val.abs : Val → Val
  | .fin _ n d e => .fin false n d e
  | .inf _ => .inf false
  | .nan => .nan

/-- floor(log2(num / den)) for num, den > 0. -/
def log2Ratio (num den : Nat) : Int :=
  let k : Int := (Nat.log2 num : Int) - (Nat.log2 den : Int)
  let ge := if 0 ≤ k then decide (den * 2 ^ k.toNat ≤ num) else decide (den ≤ num * 2 ^ (-k).toNat)
  if ge then k else k - 1

/-- Exponent of a nonzero finite value: floor(log2 |V|). -/
def expOf (num den : Nat) (e : Int) : Int := log2Ratio num den + e

/-- floor(num / den * 2^(e - lsb)) with the remainder over its divisor. -/
def quantize (num den : Nat) (e lsb : Int) : Nat × Nat × Nat :=
  if lsb ≤ e then
    let n := num * 2 ^ (e - lsb).toNat
    (n / den, n % den, den)
  else
    let d := den * 2 ^ (lsb - e).toNat
    (num / d, num % d, d)

/-- Round a quotient with remainder r over d to nearest even. -/
def rne (q r d : Nat) : Nat :=
  if d < 2 * r then q + 1 else if 2 * r = d then q + q % 2 else q

/-- round_nearest_even of a finite value to an integer magnitude at weight 2^lsb. -/
def roundAt (num den : Nat) (e lsb : Int) : Nat :=
  let (q, r, d) := quantize num den e lsb
  rne q r d

/-- An element encoding (R208). -/
structure Fp where
  /-- Exponent bits. -/
  eb : Nat
  /-- Mantissa bits. -/
  mb : Nat
  /-- Bias. -/
  bias : Int
  /-- 0 Inf and NaN as IEEE 754, 1 NaN only as E4M3, 2 no special encoding. -/
  spec : Nat
deriving DecidableEq, Repr

/-- BF16. -/
def fpBf16 : Fp := ⟨8, 7, 127, 0⟩
/-- FP16. -/
def fpF16 : Fp := ⟨5, 10, 15, 0⟩
/-- FP32. -/
def fpF32 : Fp := ⟨8, 23, 127, 0⟩
/-- FP8 E4M3. -/
def fpE4m3 : Fp := ⟨4, 3, 7, 1⟩
/-- FP8 E5M2. -/
def fpE5m2 : Fp := ⟨5, 2, 15, 0⟩
/-- FP6 E2M3. -/
def fpE2m3 : Fp := ⟨2, 3, 1, 2⟩
/-- FP6 E3M2. -/
def fpE3m2 : Fp := ⟨3, 2, 3, 2⟩
/-- FP4 E2M1. -/
def fpE2m1 : Fp := ⟨2, 1, 1, 2⟩

/-- Encoded magnitude of the largest finite value. -/
def Fp.maxMag (f : Fp) : Nat :=
  if f.spec = 0 then (2 ^ f.eb - 1) * 2 ^ f.mb - 1
  else if f.spec = 1 then 2 ^ (f.eb + f.mb) - 2
  else 2 ^ (f.eb + f.mb) - 1
/-- Exponent of the smallest normal value. -/
def Fp.emin (f : Fp) : Int := 1 - f.bias
/-- Sign bit placed above an encoded magnitude. -/
def Fp.withSign (f : Fp) (neg : Bool) (mag : Nat) : Nat := b2n neg * 2 ^ (f.eb + f.mb) + mag
/-- Canonical NaN (R216, R238). -/
def Fp.canonNan (f : Fp) : Nat :=
  if f.spec = 1 then 2 ^ (f.eb + f.mb) - 1 else (2 ^ f.eb - 1) * 2 ^ f.mb + 2 ^ (f.mb - 1)
/-- Encoded magnitude of infinity. -/
def Fp.infMag (f : Fp) : Nat := (2 ^ f.eb - 1) * 2 ^ f.mb

/-- Decode an element (R208). -/
def Fp.decode (f : Fp) (raw : Nat) : Val :=
  let m := raw % 2 ^ f.mb
  let e := (raw / 2 ^ f.mb) % 2 ^ f.eb
  let s := (raw / 2 ^ (f.eb + f.mb)) % 2 == 1
  if f.spec = 0 ∧ e = 2 ^ f.eb - 1 then (if m = 0 then .inf s else .nan)
  else if f.spec = 1 ∧ e = 2 ^ f.eb - 1 ∧ m = 2 ^ f.mb - 1 then .nan
  else if e = 0 then .fin s m 1 (1 - f.bias - f.mb)
  else .fin s (2 ^ f.mb + m) 1 ((e : Int) - f.bias - f.mb)

/-- Least significant bit of the grid at a nonzero finite value. -/
def Fp.lsb (f : Fp) (num den : Nat) (e : Int) : Int := max (expOf num den e) f.emin - f.mb

/-- Encoded magnitude of the significand q at weight 2^lsb. -/
def Fp.encMag (f : Fp) (q : Nat) (lsb : Int) : Nat := q + (lsb - (f.emin - f.mb)).toNat * 2 ^ f.mb

/-- A conversion: the encoding, whether it is a canonical NaN made by R216, and whether it overflowed. -/
structure Conv where
  /-- Encoded element. -/
  raw : Nat
  /-- Output as canonical NaN. -/
  nan : Bool
  /-- Overflowed, or Inf sent to E4M3. -/
  ovf : Bool
deriving DecidableEq, Repr

/-- convert() of R216: `sat` is the saturation setting that applies to the format. -/
def Fp.convert (f : Fp) (sat : Bool) (v : Val) : Conv :=
  match v with
  | .nan => ⟨f.canonNan, true, false⟩
  | .inf s =>
    if f.spec ≠ 1 then ⟨f.withSign s f.infMag, false, false⟩
    else if sat then ⟨f.withSign s f.maxMag, false, true⟩ else ⟨f.canonNan, true, true⟩
  | .fin s n d e =>
    if n = 0 then ⟨f.withSign s 0, false, false⟩
    else
      let l := f.lsb n d e
      let mag := f.encMag (roundAt n d e l) l
      if f.maxMag < mag then
        if sat then ⟨f.withSign s f.maxMag, false, true⟩
        else if f.spec = 1 then ⟨f.canonNan, true, true⟩
        else ⟨f.withSign s f.infMag, false, true⟩
      else ⟨f.withSign s mag, false, false⟩

/-- fp_round of R239: nearest even, subnormals kept, saturating to the largest finite value. -/
def Fp.roundSat (f : Fp) (v : Val) : Nat :=
  match v with
  | .nan => 0
  | .inf s => f.withSign s f.maxMag
  | .fin s n d e =>
    if n = 0 then f.withSign s 0
    else
      let l := f.lsb n d e
      f.withSign s (min (f.encMag (roundAt n d e l) l) f.maxMag)

/-- rn(): round to FP32, nearest even, overflow to infinity, every NaN canonical. -/
def rnF32 (v : Val) : Nat := (fpF32.convert false v).raw

/-- An FP32 word as a value. -/
def valF32 (w : Nat) : Val := fpF32.decode w

/-- Square root, as close as nearest-even rounding to FP32 needs: below the exact root with a sticky bit when it is inexact. -/
def Val.sqrt : Val → Val
  | .nan => .nan
  | .inf s => if s then .nan else .inf false
  | .fin s n d e =>
    if n = 0 then .fin s 0 1 0
    else if s then .nan
    else
      let k : Nat := 128 + (if e % 2 = 0 then 0 else 1)
      let x := n * 2 ^ k / d
      let q := Nat.sqrt x
      let exact := q * q == x && x * d == n * 2 ^ k
      .fin false (2 * q + b2n (!exact)) 1 ((e - k) / 2 - 1)

/-- Stochastic rounding of R291 with random bits r. -/
def Fp.convertSr (f : Fp) (sat : Bool) (r : Nat) (v : Val) : Nat :=
  match v with
  | .nan => f.canonNan
  | .inf s => (f.convert sat (.inf s)).raw
  | .fin s n d e =>
    if n = 0 then f.withSign false 0
    else
      let l := f.lsb n d e
      let (q, rem, dv) := quantize n d e l
      let lo := f.encMag q l
      if f.maxMag < lo ∨ (lo = f.maxMag ∧ rem ≠ 0) then
        (if sat then f.withSign s f.maxMag else if f.spec = 1 then f.canonNan else f.withSign s f.infMag)
      else if rem = 0 then f.withSign s lo
      else if s then
        -- the grid value below is the larger magnitude: V - lo = (dv - rem) / dv of a step
        f.withSign true (if r * dv < (dv - rem) * 2 ^ 32 then lo else lo + 1)
      else f.withSign false (if r * dv < rem * 2 ^ 32 then lo + 1 else lo)

/-- IEEE 754 minimumNumber (`mx` = false) or maximumNumber of two FP32 words, with -0 < +0; every NaN result is canonical (R279). -/
def minMaxF (mx : Bool) (a b : Nat) : Nat :=
  let va := valF32 a
  let vb := valF32 b
  if va.isNan && vb.isNan then fpF32.canonNan
  else if va.isNan then b
  else if vb.isNan then a
  else
    let aLess := va.lt vb || (va.isZero && vb.isZero && va.sign && !vb.sign)
    if mx then (if aLess then b else a) else (if aLess then a else if vb.lt va || (va.isZero && vb.isZero && vb.sign) then b else a)

/-- Sum of two elements of a format, exact and rounded once to nearest even (R279). -/
def Fp.addRn (f : Fp) (a b : Nat) : Nat := (f.convert false ((f.decode a).add (f.decode b))).raw

end Sys2Proof.Machine
end

