-- ==== Sys2Proof/Machine/Formats.lean ====
section
/-!
DEFINITION. Tile shapes, stored layouts, EPC blocks and the decode of one output flit (06_streams.md R185-R188;
07_weight_decode.md R208-R219).
-/

namespace Sys2Proof.Machine

/-- Rows and columns of SHAPE 0-6 (R185). -/
def shapeDim : Nat → Nat × Nat
  | 0 => (16, 16) | 1 => (16, 32) | 2 => (32, 16) | 3 => (32, 32) | 4 => (16, 64) | 5 => (64, 16) | 6 => (8, 128) | _ => (1, 1)
/-- Rows of a tile. -/
def shapeRows (sh : Nat) : Nat := (shapeDim sh).1
/-- Columns of a tile. -/
def shapeCols (sh : Nat) : Nat := (shapeDim sh).2
/-- Elements of a tile. -/
def shapeElems (sh : Nat) : Nat := shapeRows sh * shapeCols sh

/-- Bytes of an element on the wire for OUT_FMT 1-4 (R185, R149). -/
def outWidth : Nat → Nat | 1 => 2 | 2 => 2 | 3 => 1 | 4 => 4 | _ => 1
/-- Encoding of OUT_FMT 1-4. -/
def outFp : Nat → Fp | 1 => fpBf16 | 2 => fpF16 | 3 => fpE4m3 | _ => fpF32

/-- Bytes of an element of IN_FMT, PRE_FMT or the FMT of AT_VACC: 0 FP32, 1 BF16, 2 FP16 (05 R151, R152). -/
def inWidth (f : Nat) : Nat := if f = 0 then 4 else 2
/-- Encoding of IN_FMT. -/
def inFp : Nat → Fp | 0 => fpF32 | 1 => fpBf16 | _ => fpF16

/-- Stored width of the plain formats 0x01-0x05, and of pass-through for R188. -/
def plainWidth : Nat → Nat | 0x01 => 2 | 0x02 => 2 | 0x03 => 4 | _ => 1
/-- Encoding of a plain stored format. -/
def plainFp : Nat → Fp | 0x01 => fpBf16 | 0x02 => fpF16 | 0x03 => fpF32 | 0x04 => fpE4m3 | _ => fpE5m2
/-- Plain stored format. -/
def isPlain (fmt : Nat) : Bool := decide (1 ≤ fmt) && decide (fmt ≤ 5)
/-- EPC stored format. -/
def isEpc (fmt : Nat) : Bool := decide (0x0E ≤ fmt) && decide (fmt ≤ 0x10)
/-- Bytes of a block or group of 32 elements (R209). -/
def unitBytes : Nat → Nat
  | 0x06 => 33 | 0x07 => 33 | 0x0B => 33 | 0x08 => 25 | 0x09 => 25 | 0x0A => 17 | 0x0D => 18 | _ => 0
/-- The plain format of an EPC format. -/
def epcPlain : Nat → Nat | 0x0E => 0x01 | 0x0F => 0x04 | _ => 0x05

/-- Stored bytes of one tile (R210); for EPC the uncompressed size. -/
def tileStored (fmt sh : Nat) : Nat :=
  let e := shapeElems sh
  if isPlain fmt then e * plainWidth fmt
  else if isEpc fmt then e * plainWidth (epcPlain fmt)
  else if fmt = 0x0C then shapeRows sh * (shapeCols sh + 2)
  else unitBytes fmt * e / 32

/-- Stored lines of a stream of `tiles` tiles (R210). -/
def storedLines (fmt sh tiles : Nat) : Nat := cdiv (tiles * tileStored fmt sh) 128

/-- Output flits of 128 bytes per tile, Bt (R185). -/
def beatsPerTile (sh w : Nat) : Nat := shapeElems sh * w / 128

/-! ### Bytes of a stream -/

/-- Byte i of line bits. -/
def byteOf (d : LineBits) (i : Nat) : Nat := (d.toNat >>> (8 * i)) % 256
/-- Spore of the granule of byte i. -/
def sporeOf (l : Line) (i : Nat) : Bool := if i < 64 then l.sp0 else l.sp1
/-- Byte i of a stream of lines. -/
def strByte (st : Nat → Line) (i : Nat) : Nat := byteOf (st (i / 128)).data (i % 128)
/-- Spore of byte i of a stream. -/
def strSpore (st : Nat → Line) (i : Nat) : Bool := sporeOf (st (i / 128)) (i % 128)
/-- n bytes of a stream from byte i, least significant first. -/
def strWord (st : Nat → Line) (i n : Nat) : Nat := (List.range n).foldl (fun a k => a + strByte st (i + k) * 256 ^ k) 0
/-- `w` bits of a stream from bit `b` counted from byte i (w at most 9). -/
def strBits (st : Nat → Line) (i b w : Nat) : Nat :=
  let j := i + b / 8
  ((strByte st j + (if (b % 8) + w ≤ 8 then 0 else strByte st (j + 1) * 256)) >>> (b % 8)) % 2 ^ w
/-- A spore on any of the bytes from i to i + n - 1. -/
def strAnySpore (st : Nat → Line) (i n : Nat) : Bool := (List.range n).any fun k => strSpore st (i + k)

/-- n as a two's complement number of w bits. -/
def toSigned (w n : Nat) : Int := if n < 2 ^ (w - 1) then n else (n : Int) - 2 ^ w

/-- E8M0 scale (R208, R215). -/
def e8m0 (x : Nat) : Val := if x = 255 then .nan else .fin false 1 1 ((x : Int) - 127)

/-- An element of the stream: its exact value, its raw bits where it is a plain element, and whether a byte it depends on carries a
spore. -/
structure Elem where
  /-- The exact value V of R215. -/
  val : Val
  /-- Stored bits of a plain element. -/
  raw : Nat
  /-- It depends on a spored byte. -/
  spore : Bool
deriving DecidableEq, Repr

/-- Element i of a stream of a format other than EPC (R209, R215). -/
def stElem (fmt cols : Nat) (st : Nat → Line) (i : Nat) : Elem :=
  let blk := i / 32
  let e := i % 32
  let u := blk * unitBytes fmt
  let scaled := fun (v : Val) (b n : Nat) => (⟨v.mul (e8m0 (strByte st u)), 0, strSpore st u || strAnySpore st b n⟩ : Elem)
  if isPlain fmt then
    let w := plainWidth fmt
    let r := strWord st (i * w) w
    ⟨(plainFp fmt).decode r, r, strAnySpore st (i * w) w⟩
  else if fmt = 0x06 then scaled (fpE4m3.decode (strByte st (u + 1 + e))) (u + 1 + e) 1
  else if fmt = 0x07 then scaled (fpE5m2.decode (strByte st (u + 1 + e))) (u + 1 + e) 1
  else if fmt = 0x0B then scaled (.ofInt (toSigned 8 (strByte st (u + 1 + e))) (-6)) (u + 1 + e) 1
  else if fmt = 0x08 ∨ fmt = 0x09 then
    let f := if fmt = 0x08 then fpE2m3 else fpE3m2
    scaled (f.decode (strBits st (u + 1) (6 * e) 6)) (u + 1 + 6 * e / 8) ((6 * e + 5) / 8 - 6 * e / 8 + 1)
  else if fmt = 0x0A then scaled (fpE2m1.decode (strBits st (u + 1) (4 * e) 4)) (u + 1 + e / 2) 1
  else if fmt = 0x0C then
    let b := (i / cols) * (cols + 2)
    let x := b + 2 + i % cols
    ⟨(Val.ofInt (toSigned 8 (strByte st x)) 0).mul (fpF16.decode (strWord st b 2)), 0, strAnySpore st b 2 || strSpore st x⟩
  else
    ⟨(Val.ofInt (toSigned 4 (strBits st (u + 2) (4 * e) 4)) 0).mul (fpF16.decode (strWord st u 2)), 0,
      strAnySpore st u 2 || strSpore st (u + 2 + e / 2)⟩

/-! ### EPC -/

/-- Elements of an EPC block (R212). -/
def epcElems (fmt : Nat) : Nat := if fmt = 0x0E then 64 else 128

/-- Why an EPC context ends (R214): KIND of DEC.FAULT_SRC and the stored line concerned, counted from the stream's first. -/
structure EpcStop where
  /-- 1 STARVE, 2 OVERFILL, 3 FORMAT, 4 END, 5 spored control, 6 CTX_UE. -/
  kind : Nat
  /-- Line within the stream. -/
  line : Nat
deriving DecidableEq, Repr

/-- A parsed block: K, BASE, where its planes lie and where the next block begins. -/
structure EpcBlock where
  /-- Position of CTL. -/
  ctl : Nat
  /-- K. -/
  k : Nat
  /-- BASE. -/
  base : Nat
  /-- First byte of the sign-mantissa plane. -/
  sm : Nat
  /-- First byte of the exponent plane. -/
  ep : Nat
  /-- First byte after the block. -/
  next : Nat
deriving DecidableEq, Repr

/-- Bits of the exponent and the mantissa of an EPC format's plain elements (R213). -/
def epcEw (fmt : Nat) : Nat := if fmt = 0x0E then 8 else if fmt = 0x0F then 4 else 5
/-- Mantissa bits. -/
def epcMw (fmt : Nat) : Nat := if fmt = 0x0E then 7 else if fmt = 0x0F then 3 else 2

/-- K and BASE fields of a CTL byte; none when the value is reserved (R212). -/
def epcCtl (fmt ctl : Nat) : Option (Nat × Nat) :=
  if fmt = 0x0E then (if ctl ≤ 8 then some (ctl, 0) else none)
  else if fmt = 0x0F then (if ctl / 16 ≤ 4 then some (ctl / 16, ctl % 16) else none)
  else if ctl / 32 ≤ 5 then some (ctl / 32, ctl % 32) else none

/-- The byte may be read: within LINES and in an available line, else the stop. -/
def epcNeed (lines : Nat) (avail : Nat → Bool) (pos : Nat) : Option EpcStop :=
  if lines ≤ pos / 128 then some ⟨4, lines⟩ else if avail (pos / 128) then none else some ⟨1, pos / 128⟩

/-- Position of the next CTL byte that is not a pad byte (R212). -/
def epcSkip (st : Nat → Line) (lines : Nat) (avail : Nat → Bool) : Nat → Nat → Except EpcStop Nat
  | 0, _ => .error ⟨4, lines⟩
  | fuel + 1, pos =>
    match epcNeed lines avail pos with
    | some e => .error e
    | none =>
      if strSpore st pos then .error ⟨5, pos / 128⟩
      else if strByte st pos = 255 then epcSkip st lines avail fuel (pos + 1)
      else .ok pos

/-- Delta of element i of a block. -/
def epcDelta (st : Nat → Line) (b : EpcBlock) (i : Nat) : Nat := if b.k = 0 then 0 else strBits st b.ep (b.k * i) b.k

/-- Parse the block at a position (R212-R214). -/
def epcParse (fmt : Nat) (st : Nat → Line) (lines : Nat) (avail : Nat → Bool) (pos0 : Nat) : Except EpcStop EpcBlock :=
  match epcSkip st lines avail (lines * 128 + 1 - pos0) pos0 with
  | .error e => .error e
  | .ok pos =>
    match epcCtl fmt (strByte st pos) with
    | none => .error ⟨3, pos / 128⟩
    | some (k, b0) =>
      let hdr := if fmt = 0x0E then 2 else 1
      match (if fmt = 0x0E then epcNeed lines avail (pos + 1) else none) with
      | some e => .error e
      | none =>
        if fmt = 0x0E ∧ strSpore st (pos + 1) then .error ⟨5, (pos + 1) / 128⟩
        else
          let n := epcElems fmt
          let smb := n * (epcMw fmt + 1) / 8
          let blk : EpcBlock :=
            { ctl := pos, k := k, base := if fmt = 0x0E then strByte st (pos + 1) else b0
              sm := pos + hdr, ep := pos + hdr + smb, next := pos + hdr + smb + n * k / 8 }
          let first := (List.range ((blk.next - 1) / 128 + 1 - pos / 128)).findSome? fun j =>
            epcNeed lines avail ((pos / 128 + j) * 128)
          match first with
          | some e => .error e
          | none =>
            match (List.range n).find? fun i =>
                !(blk.k ≠ 0 && epcDelta st blk i == 2 ^ blk.k - 1) && decide (2 ^ epcEw fmt ≤ blk.base + epcDelta st blk i) with
            | some i => .error ⟨3, (blk.ep + blk.k * i / 8) / 128⟩
            | none => .ok blk

/-- Raw plain element i of a parsed block (R213). -/
def epcRaw (fmt : Nat) (st : Nat → Line) (b : EpcBlock) (i : Nat) : Nat :=
  let mw := epcMw fmt
  let sm := strBits st b.sm ((mw + 1) * i) (mw + 1)
  let d := epcDelta st b i
  let e := if b.k ≠ 0 ∧ d = 2 ^ b.k - 1 then 0 else b.base + d
  (sm / 2 ^ mw) * 2 ^ (epcEw fmt + mw) + e * 2 ^ mw + sm % 2 ^ mw

/-- Any byte of the block carries a spore (R219). -/
def epcSpored (st : Nat → Line) (b : EpcBlock) : Bool := strAnySpore st b.ctl (b.next - b.ctl)

/-- Parse n blocks from a position: the blocks before the first stop, and the stop. -/
def epcBlocks (fmt : Nat) (st : Nat → Line) (lines : Nat) (avail : Nat → Bool) : Nat → Nat → List EpcBlock × Option EpcStop
  | 0, _ => ([], none)
  | n + 1, pos =>
    match epcParse fmt st lines avail pos with
    | .error e => ([], some e)
    | .ok b =>
      let (l, r) := epcBlocks fmt st lines avail n b.next
      (b :: l, r)

/-! ### Output flits -/

/-- A decoded output flit. -/
structure FlitOut where
  /-- Its bytes and spores. -/
  line : Line
  /-- Elements output as canonical NaN by R216. -/
  nans : Nat
  /-- Elements overflowed. -/
  ovfs : Nat
  /-- Granules spored under R219. -/
  spIn : Nat
  /-- Granules spored under R214 or R220. -/
  spDec : Nat
deriving DecidableEq, Repr

/-- The stored format and OUT_FMT are the same encoding, so elements are copied bit for bit (R217). -/
def copiesBits (fmt out : Nat) : Bool :=
  (fmt == 1 && out == 1) || (fmt == 2 && out == 2) || (fmt == 3 && out == 4) || (fmt == 4 && out == 3) ||
  (fmt == 0x0E && out == 1) || (fmt == 0x0F && out == 3)

/-- Elements per output flit. -/
def flitElems (out : Nat) : Nat := 128 / outWidth out

/-- Convert one element (R216, R217). -/
def outElem (fmt out : Nat) (satFp8 satWide : Bool) (e : Elem) : Conv :=
  if copiesBits fmt out then ⟨e.raw, false, false⟩
  else (outFp out).convert (if out = 3 then satFp8 else satWide) e.val

/-- Pack converted elements into a flit. -/
def packElems (w : Nat) (cs : List Conv) : LineBits :=
  BitVec.ofNat 1024 ((cs.zipIdx.map fun e => e.1.raw * 256 ^ (w * e.2)).foldl (· + ·) 0)

/-- The flit of the elements `es`; granules whose first element index is in `bad` are sent as zeros with a spore (R214). -/
def mkFlit (fmt out : Nat) (satFp8 satWide : Bool) (es : List Elem) (bad0 bad1 : Bool) : FlitOut :=
  let h := es.length / 2
  let cs := es.map (outElem fmt out satFp8 satWide)
  let lo := cs.take h
  let hi := cs.drop h
  let s0 := (es.take h).any (·.spore)
  let s1 := (es.drop h).any (·.spore)
  let z := ⟨0, false, false⟩
  let lo' := if bad0 then lo.map fun _ => z else lo
  let hi' := if bad1 then hi.map fun _ => z else hi
  { line := { data := packElems (outWidth out) (lo' ++ hi'), sp0 := bad0 || s0, sp1 := bad1 || s1 }
    nans := (lo' ++ hi').countP (·.nan)
    ovfs := (lo' ++ hi').countP (·.ovf)
    spIn := b2n (!bad0 && s0) + b2n (!bad1 && s1)
    spDec := b2n bad0 + b2n bad1 }

/-- A flit of zero bytes with both spores (R214). -/
def deadFlit : FlitOut := { line := ⟨0, true, true⟩, nans := 0, ovfs := 0, spIn := 0, spDec := 2 }

/-- An element that is not sent: a byte before START_ROW goes out as zero, without a spore, and counts nowhere (06 R196). -/
def Elem.none : Elem := ⟨Val.zero, 0, false⟩

/-- Output flit k of a stream that is not EPC (R187, R188, R209, R215-R219); the first `from_` elements of the stream are not sent. -/
def plainFlit (fmt sh out : Nat) (satFp8 satWide : Bool) (st : Nat → Line) (k from_ : Nat) : FlitOut :=
  if out = 0 then
    let l := st k
    { line := l, nans := 0, ovfs := 0, spIn := b2n l.sp0 + b2n l.sp1, spDec := 0 }
  else
    let n := flitElems out
    mkFlit fmt out satFp8 satWide ((List.range n).map fun q =>
      if k * n + q < from_ then Elem.none else stElem fmt (shapeCols sh) st (k * n + q)) false false

/-- Lines of the stream that flit k of a non-EPC stream uses: the last one (R211; R160's proportional share covers it). -/
def lastLineOf (fmt sh out k : Nat) : Nat :=
  if out = 0 then k
  else
    let i := (k + 1) * flitElems out - 1
    if isPlain fmt then (i + 1) * plainWidth fmt / 128 + (if (i + 1) * plainWidth fmt % 128 = 0 then 0 else 1) - 1
    else if fmt = 0x0C then ((i / shapeCols sh) * (shapeCols sh + 2) + 2 + i % shapeCols sh) / 128
    else ((i / 32 + 1) * unitBytes fmt - 1) / 128

/-- Stored bytes that flit k of a stream that is not EPC is decoded from, as runs of first byte and length: its units, and for FMT 0x0C the
scale of its rows (R209, R219). -/
def plainBytes (fmt sh out k : Nat) : List (Nat × Nat) :=
  let n := flitElems out
  let i := k * n
  if out = 0 then [(128 * k, 128)]
  else if isPlain fmt then [(i * plainWidth fmt, n * plainWidth fmt)]
  else if fmt = 0x0C then
    let c := shapeCols sh
    let row := fun r => r * (c + 2)
    ((List.range ((i + n - 1) / c + 1 - i / c)).map (· + i / c)).flatMap fun r =>
      let a := max i (r * c) - r * c
      let b := min (i + n) (r * c + c) - r * c
      [(row r, 2), (row r + 2 + a, b - a)]
  else [(i / 32 * unitBytes fmt, (n / 32) * unitBytes fmt)]

/-- 64-bit words of line j that runs of bytes touch (R220). -/
def wordsOf (runs : List (Nat × Nat)) (j : Nat) : List Nat :=
  (List.range 16).filter fun w => runs.any fun r =>
    decide (r.1 < 128 * j + 8 * w + 8) && decide (128 * j + 8 * w < r.1 + r.2)

/-- EPC output from element `e0` on: `blk0` blocks of `n` elements are already passed, `pos` is where block `blk0` begins. -/
structure EpcAt where
  /-- Number of the block that begins at `pos`. -/
  blk : Nat
  /-- Byte position. -/
  pos : Nat
deriving DecidableEq, Repr

/-- Output flit k of an EPC stream from a decode position: the flit, the next position, the blocks finished, and the stop if the
context ends here (R212-R214, R219); the first `from_` elements of the stream are not sent. -/
def epcFlit (fmt out : Nat) (satFp8 satWide : Bool) (st : Nat → Line) (lines : Nat) (avail : Nat → Bool) (a : EpcAt) (k from_ : Nat) :
    FlitOut × EpcAt × Option EpcStop :=
  let n := epcElems fmt
  let fe := flitElems out
  let i0 := k * fe
  let b1 := (i0 + fe - 1) / n
  let (bs, stop) := epcBlocks fmt st lines avail (b1 + 1 - a.blk) a.pos
  let okElems := (a.blk + bs.length) * n
  let plain := epcPlain fmt
  let el := fun i =>
    match bs[i / n - a.blk]? with
    | some b => let r := epcRaw fmt st b (i % n); (⟨(plainFp plain).decode r, r, epcSpored st b⟩ : Elem)
    | none => Elem.none
  let es := (List.range fe).map fun q => if i0 + q < from_ then Elem.none else el (i0 + q)
  -- a flit that STARVE finds late is lost whole; the other stops spore from the block's first output byte (R214)
  let bad0 := match stop with | none => false | some e => e.kind == 1 || decide (okElems < i0 + fe / 2)
  let bad1 := match stop with | none => false | some e => e.kind == 1 || decide (okElems < i0 + fe)
  let a' : EpcAt :=
    if (i0 + fe) % n = 0 then
      (match bs.getLast? with | some b => ⟨a.blk + bs.length, b.next⟩ | none => a)
    else
      (match bs.getLast? with | some b => ⟨b1, b.ctl⟩ | none => a)
  (mkFlit fmt out satFp8 satWide es bad0 bad1, a', stop)

end Sys2Proof.Machine
end

