-- ==== Sys2Proof/Machine/Thallus.lean ====
section
/-!
DEFINITION. Stored lines: check codes, reading and writing a line, mirror lines, the counting of read errors, repairs and seals, tier loss
(04_thallus.md; 13_errors_poison_scrub.md R348-R356; 14_sparing_rebuild.md R377, R381, R388).
-/

namespace Sys2Proof.Machine

/-- Bank number of a LINE (04 R115). -/
def lineBank (line : Nat) : Nat := (line / 32) % 16
/-- Bank group of a bank. -/
def bankGroup (bank : Nat) : Nat := bank % 4
/-- Row of a LINE. -/
def lineRow (line : Nat) : Nat := line / 1024
/-- Column of a LINE. -/
def lineCol (line : Nat) : Nat := ((line / 512) % 2) * 32 + line % 32
/-- Lap index of a LINE (13 R357). -/
def lapOf (line : Nat) : Nat := lineRow line * 1024 + lineBank line * 64 + lineCol line
/-- LINE of a row, bank and column. -/
def mkLine (row bank col : Nat) : Nat := row * 1024 + (col / 32) * 512 + bank * 32 + col % 32
/-- LINE of a lap index (13 R357). -/
def lineOfLap (k : Nat) : Nat := mkLine (k / 1024) ((k / 64) % 16) (k % 64)

/-- One bit into the CRC-16 of polynomial `poly` (04 R112). -/
def crc16Bit (poly : Nat) (c : Nat) (b : Bool) : Nat :=
  let inb := xor b (c.testBit 15)
  let c' := (2 * c) % 65536
  if inb then c' ^^^ poly else c'

/-- One bit into a 12-bit CRC. -/
def crc12Bit (poly : Nat) (c : Nat) (b : Bool) : Nat :=
  let inb := xor b (c.testBit 11)
  let c' := (2 * c) % 4096
  if inb then c' ^^^ poly else c'

/-- The bits of a chunk in the order of R112: byte 15 first, bit 7 first. -/
def chunkBits (d : BitVec 128) : List Bool := (List.range 128).map fun i => d.getLsbD (127 - i)

/-- Check field of a data chunk (04 R112). -/
def chunkCheck (line pos : Nat) (d : BitVec 128) : BitVec 16 :=
  let seed := (line % 65536) ^^^ (((line / 65536) % 16) * 4096) ^^^ (pos * 256)
  BitVec.ofNat 16 ((chunkBits d).foldl (crc16Bit 0x8BB7) seed)

/-- 12-bit code of the parity chunk (04 R113). -/
def parityCode (line : Nat) (d : BitVec 128) : Nat :=
  (chunkBits d).foldl (crc12Bit 0x80F) ((line % 4096) ^^^ ((line / 4096) % 256))

/-- A stored chunk: 16 data bytes below 16 check bits. -/
def mkChunk (d : BitVec 128) (chk : BitVec 16) : BitVec 144 := chk ++ d

/-- Data bytes of a stored chunk. -/
def chunkData (c : BitVec 144) : BitVec 128 := c.extractLsb' 0 128
/-- Check field of a stored chunk. -/
def chunkChk (c : BitVec 144) : BitVec 16 := c.extractLsb' 128 16

/-- Data chunk p of a line (04 R111). -/
def lineChunk (d : LineBits) (p : Nat) : BitVec 128 := d.extractLsb' (128 * p) 128

/-- The parity of the eight data chunks. -/
def lineParity (d : LineBits) : BitVec 128 := (List.range 8).foldl (fun a p => a ^^^ lineChunk d p) 0

/-- A line from its eight data chunks. -/
def ofChunks (c : Nat → BitVec 128) : LineBits :=
  (List.range 8).foldl (fun a p => a ||| ((c p).setWidth 1024 <<< (128 * p))) 0

/-- Key of a chunk's cell. -/
def cellKey (t bank row col : Nat) : Nat := ((t * 16 + bank) * 1032 + row) * 64 + col

/-- Valid active CAM entry of a tier (14 R377): valid word, bank, row, spare. -/
def camEntry (w : Word) : Bool × Nat × Nat × Nat := (bit w 31, fld w 13 10, fld w 9 0, fld w 16 14)

/-- The row a tier opens for a bank and data row (14 R377). -/
def physRow (s : State) (t bank row : Nat) : Nat :=
  match (s.spr.camAct.filter fun e => decide (e.1 / 64 = t)).find? (fun e => camEntry e.2 |> fun (v, b, r, _) => v && b == bank && r == row) with
  | some e => 1024 + (camEntry e.2).2.2.2
  | none => row

/-- What an unlisted cell of a tier holds. -/
def cellBase (s : State) (t bank row col : Nat) : BitVec 144 :=
  let b := nth s.thl.base t 0
  if b = 0 ∨ 1024 ≤ row then Config.undefinedChunk (nth s.thl.gen t 0) (cellKey t bank row col)
  else
    let line := mkLine row bank col
    let p := b - 1
    if p = 8 then mkChunk 0 (BitVec.ofNat 16 (parityCode line 0 * 16)) else mkChunk 0 (chunkCheck line p 0)

/-- The chunk stored in a cell. -/
def readCell (s : State) (t bank row col : Nat) : BitVec 144 :=
  match smGet s.thl.cells (cellKey t bank row col) with
  | some c => c
  | none => cellBase s t bank row col

/-- A cell whose unlisted value is undefined: once written it stays listed. -/
def cellUndefined (s : State) (t row : Nat) : Bool := nth s.thl.base t 0 == 0 || decide (1024 ≤ row)

/-- Store a chunk. A chunk equal to a defined base is not listed. -/
def writeCell (s : State) (t bank row col : Nat) (c : BitVec 144) : State :=
  let k := cellKey t bank row col
  let m := if cellUndefined s t row then smPut s.thl.cells k c else smSet s.thl.cells k c (cellBase s t bank row col)
  { s with thl := { s.thl with cells := m } }

/-- T9 is assigned to position p (14 R386, R391). -/
def t9For (s : State) (p : Nat) : Bool :=
  decide (s.spr.pos = p) && decide (s.spr.rebuild ≠ .idle)

/-- The tier serving position p of a line, none when the position lacks a tier there (04 R134; 14 R388). -/
def posTier (s : State) (line p : Nat) : Option Nat :=
  if tierFailed s p then
    if t9For s p && !tierFailed s 9 && decide (lapOf line < s.spr.front) then some 9 else none
  else some p

/-- Position p lacks a tier: a position under rebuild counts (04 R134, R135). -/
def posLacks (s : State) (p : Nat) : Bool :=
  tierFailed s p && !(t9For s p && s.spr.serves && !tierFailed s 9)

/-- Positions that lack a tier. -/
def lacking (s : State) : List Nat := (List.range 9).filter (posLacks s)

/-- The line is pending a row fill in tier t (14 R381). -/
def fillPending (s : State) (t line : Nat) : Bool :=
  s.spr.fills.any fun f =>
    f.1 == t && f.2.2.contains (lineCol line) &&
      (let (_, b, r, _) := camEntry (smGetD s.spr.camAct (t * 64 + f.2.1) 0); b == lineBank line && r == lineRow line)

/-- The chunk read at position p of a line; none when the position is lacking for this read. -/
def readPos (s : State) (line p : Nat) : Option (Nat × BitVec 144) :=
  match posTier s line p with
  | none => none
  | some t =>
    if fillPending s t line then none
    else some (t, readCell s t (lineBank line) (physRow s t (lineBank line) (lineRow line)) (lineCol line))

/-- Class of a chunk (04 R114). -/
inductive ChunkCls where
  | good | spored | bad
deriving DecidableEq, Repr

/-- Class of a data chunk. -/
def dataCls (line p : Nat) (c : BitVec 144) : ChunkCls :=
  let k := chunkCheck line p (chunkData c)
  if chunkChk c = k then .good else if chunkChk c = k ^^^ 0xA5A5#16 then .spored else .bad

/-- The parity chunk is GOOD. -/
def parityGood (line : Nat) (c : BitVec 144) : Bool := fld (chunkChk c) 15 4 == parityCode line (chunkData c)

/-- Read one stored line under R126. -/
def readLine (s : State) (line : Nat) : LineRead :=
  let ch := fun p => readPos s line p
  let cls := fun p => match ch p with | some (_, c) => dataCls line p c | none => ChunkCls.bad
  let raw := fun p => match ch p with
    | some (_, c) => chunkData c
    | none => chunkData (Config.undefinedChunk 0 (2 ^ 40 + line * 16 + p))
  let par := ch 8
  let parOk := match par with | some (_, c) => parityGood line c | none => false
  let badPos := (List.range 8).filter fun p => cls p == .bad
  let fix := badPos.length == 1 && parOk
  let parD := match par with | some (_, c) => chunkData c | none => 0
  let reb := fun q => (List.range 8).foldl (fun a p => if p = q then a else a ^^^ raw p) parD
  let dat := fun p => if fix && cls p == .bad then reb p else raw p
  let ueG := fun g => !fix && badPos.any fun p => p / 4 == g
  let spG := fun g => (List.range 8).any fun p => p / 4 == g && cls p == .spored
  let ue0 := ueG 0
  let ue1 := ueG 1
  let badT := ((List.range 8).filterMap fun p => match ch p with
      | some (t, _) => if cls p == .bad then some t else none
      | none => none) ++
    (match par with | some (t, _) => if parOk then [] else [t] | none => [])
  { line := { data := ofChunks dat, sp0 := ue0 || spG 0, sp1 := ue1 || spG 1 }
    stored := ofChunks raw
    badTiers := badT
    ue := ue0 || ue1
    ue0 := ue0
    ue1 := ue1
    epoch := match par with | some (_, c) => fld (chunkChk c) 3 0 | none => 0
    st0 := spG 0
    st1 := spG 1
    made := b2n (ue0 && !spG 0) + b2n (ue1 && !spG 1)
    recon := fix || (List.range 9).any fun p => (ch p).isNone }

/-- The chunk written at position p of a line (04 R122, R124). -/
def storedChunk (line p : Nat) (l : Line) (epoch : Nat) : BitVec 144 :=
  if p = 8 then
    let d := lineParity l.data
    mkChunk d (BitVec.ofNat 16 (parityCode line d * 16 + epoch % 16))
  else
    let d := lineChunk l.data p
    let k := chunkCheck line p d
    mkChunk d (if (if p < 4 then l.sp0 else l.sp1) then k ^^^ 0xA5A5#16 else k)

/-- Write every position of a line that has a tier, with no follow-up (04 R122, R125). -/
def storeLine (s : State) (line : Nat) (l : Line) (epoch : Nat) : State :=
  (List.range 9).foldl (fun s p =>
    match posTier s line p with
    | none => s
    | some t => writeCell s t (lineBank line) (physRow s t (lineBank line) (lineRow line)) (lineCol line) (storedChunk line p l epoch)) s

/-- Every write of a line clears its pending fill bits (14 R382). -/
def clearFill (s : State) (line : Nat) : State :=
  let f := s.spr.fills.map fun f =>
    let (_, b, r, _) := camEntry (smGetD s.spr.camAct (f.1 * 64 + f.2.1) 0)
    if b == lineBank line && r == lineRow line then (f.1, f.2.1, f.2.2.filter fun c => c != lineCol line) else f
  { s with spr := { s.spr with fills := f.filter fun f => !f.2.2.isEmpty } }

/-- A write to a line drops its queued repair or seal, and the one that a read already made would queue (13 R351). -/
def dropRepair (s : State) (line : Nat) : State :=
  { s with
    ras := { s.ras with repairs := s.ras.repairs.filter fun e => !(e.line == line || e.copies.contains line) }
    thl := { s.thl with flights := s.thl.flights.map fun f =>
      if f.sample.isSome && (f.line == line || f.twin == some line) then { f with stale := true } else f } }

/-- Invert bit 0 of the chunk tier `t` holds of a line, if it serves a position there (13 R373). -/
def flipTier (s : State) (line t : Nat) : State :=
  match (List.range 9).find? fun p => posTier s line p == some t with
  | none => s
  | some _ =>
    let row := physRow s t (lineBank line) (lineRow line)
    writeCell s t (lineBank line) row (lineCol line) (readCell s t (lineBank line) row (lineCol line) ^^^ 1#144)

/-- Plant an armed tier injection in the line just written (13 R373). -/
def injectTier (s : State) (line : Nat) : State :=
  let k := rk 0x09 0x08C
  let d := s.rf k 5 0
  if s.rb k 7 && decide (d ≤ 9) then
    match (List.range 9).find? fun p => posTier s line p == some d with
    | none => s
    | some p =>
      let s1 := flipTier s line d
      let s2 := if s.rb k 6 then
          match posTier s line (p + 1) with
          | some t => if p + 1 ≤ 8 then flipTier s1 line t else s1
          | none => s1
        else s1
      s2.rgFld k 7 7 0
  else s

/-- A full-line write of a line takes its slot (04 R122; 13 R351; 14 R382). -/
def writeLine (s : State) (line : Nat) (l : Line) (epoch : Nat) : State :=
  injectTier (clearFill (dropRepair (storeLine s line l epoch) line) line) line

/-! ### Leaky buckets -/

/-- Leak period of a domain in sclk (13 R356). -/
def leakPeriod (s : State) (d : Nat) : Nat := 2 ^ s.rf (rk 0x09 (0x100 + 8 * d)) 20 16 * 1024

/-- Start of a domain's leak timer. -/
def leakStart (s : State) (d : Nat) : Nat := smGetD s.ras.leakAt d s.ras.leakBase

/-- Apply the leaks of domain d that are due at the current sclk (13 R356: the leak comes first). -/
def applyLeaks (s : State) (d : Nat) : State :=
  let n := (s.now - leakStart s d) / leakPeriod s d
  if n = 0 then s
  else
    let k := rk 0x09 (0x104 + 8 * d)
    let s1 := s.rgFld k 15 0 (s.rf k 15 0 - n)
    { s1 with ras := { s1.ras with leakAt := smPut s1.ras.leakAt d (leakStart s d + n * leakPeriod s d) } }

/-- One event of domain d (13 R356). -/
def bucketEvent (s : State) (d : Nat) : State :=
  let s := pmuEv s 0x60 1
  let k := rk 0x09 (0x104 + 8 * d)
  let lvl := min (s.rf k 15 0 + 1) 0xFFFF
  let th := s.rf (rk 0x09 (0x100 + 8 * d)) 15 0
  if th ≠ 0 ∧ th ≤ lvl then
    let w := satInc (setFld (setFld (s.rg k) 15 0 0) 31 31 1) 23 16
    logErr (s.rgSet k w) 0x09 0 (mkFld 5 0 d)
  else s.rgFld k 15 0 lvl

/-- n events of domain d in this sclk; a domain the build lacks counts nothing (13 R355). -/
def feedBucket (s : State) (d n : Nat) : State :=
  if d < nDomains s.straps.build then (List.range n).foldl (fun s _ => bucketEvent s d) (applyLeaks s d) else s

/-- Count an uncorrectable event of domain d, saturating at 0x7F. -/
def countUe (s : State) (d : Nat) : State :=
  if d < nDomains s.straps.build then
    pmuEv (s.rgSet (rk 0x09 (0x104 + 8 * d)) (satInc (s.rg (rk 0x09 (0x104 + 8 * d))) 30 24)) 0x61 1
  else s

/-- Spores created (13 R352). -/
def madeSpores (s : State) (n : Nat) : State := if n = 0 then s else pmuEv (s.bumpBy (rk 0x09 0x0A4) n) 0x62 n

/-! ### Tier loss -/

/-- Rebuild falls back to IDLE because T9 failed or an ABORT ends it (14 R389). -/
def rebuildIdle (s : State) : State :=
  logErr { s with spr := { s.spr with rebuild := .idle, front := 0, serves := false } } 0x0A 2 (mkFld 3 0 s.spr.pos)

/-- Enter fail-stop when two positions lack a tier (04 R135). -/
def checkDoubleLoss (s : State) (t : Nat) : State :=
  if 2 ≤ (lacking s).length then failStop (logErr s 0x03 3 (mkFld 3 0 t)) 2 0x03 3 (mkFld 3 0 t) else s

/-- The tier's power state is FAILED, it leaves the wake queue, and its contents are lost (04 R133; 16 R425). -/
def markFailed (s : State) (t : Nat) : State :=
  { s with
    pwr := { s.pwr with
      tiers := s.pwr.tiers.set t
        { tier s t with st := .failed, thenSleep := false, thenQueue := false, thenOff := false, asked := false, bySeq := false }
      queue := s.pwr.queue.filter fun q => q != t }
    thl := { s.thl with
      cells := s.thl.cells.filter fun e => !(e.1 / (16 * 1032 * 64) == t)
      gen := setTen s.thl.gen t (nth s.thl.gen t 0 + 1)
      base := setTen s.thl.base t 0 } }

/-- TIER_FAIL names the tier, the cause and the tier declared last (04 R133). -/
def noteFailed (s : State) (t cause : Nat) : State :=
  let k := rk 0x03 0x048
  s.rgSet k (setFld (setFld (s.rg k ||| BitVec.ofNat 32 (2 ^ t)) 19 16 cause) 23 20 t)

/-- Declare tier t failed (04 R133, R135). -/
def declareTier (s : State) (t cause : Nat) : State :=
  if tierFailed s t ∨ 10 ≤ t then s
  else
    let s1 := logErr (markFailed (noteFailed s t cause) t) 0x03 2 (mkFld 3 0 t + mkFld 5 4 cause)
    checkDoubleLoss (if t = 9 ∧ s1.spr.rebuild ≠ .idle then rebuildIdle s1 else s1) t

/-- The burst trigger of R133 after a further line read: every tier it names fails, and of several the lowest stays recorded. -/
def checkBurst (s : State) : State :=
  let lim := s.rf (rk 0x03 0x04C) 5 0
  let win := s.rf (rk 0x03 0x04C) 13 8
  if lim = 0 ∨ win = 0 then s
  else
    let hit := (List.range 10).filter fun t =>
        !tierFailed s t && decide (lim ≤ (s.thl.badHist.take win).countP fun l => l.contains t)
    let s1 := hit.foldl (fun s t => declareTier s t 2) s
    match hit with
    | t :: _ :: _ => noteFailed s1 t 2
    | _ => s1

/-- A line read that R348 counts joins the history of R133. -/
def noteHist (s : State) (bad : List Nat) : State :=
  { s with thl := { s.thl with badHist := (bad :: s.thl.badHist).take 63 } }

/-- Count a read that rebuilt a chunk or lacked a position (18 R467). -/
def noteRecon (s : State) (r : LineRead) : State := if r.recon then pmuEv s 0x23 1 else s

/-! ### Counting, repairs and seals -/

/-- A repair or seal of the line is queued; an entry of a mirror line counts for both of its copies, whichever it rewrites (13 R348). -/
def hasRepair (s : State) (line : Nat) : Bool :=
  s.ras.repairs.any fun e => e.line == line || e.copies.contains line || mirrorTwin s e.line == some line

/-- Queue a repair or seal (13 R351). -/
def queueRepair (s : State) (e : RepairEnt) : State :=
  if s.ras.repairs.any (fun x => x.line == e.line) then
    if e.isSeal then
      { s with ras := { s.ras with repairs := s.ras.repairs.map fun x => if x.line == e.line && !x.isSeal then e else x } }
    else s
  else if 16 ≤ s.ras.repairs.length then
    logErr (s.bump (rk 0x09 0x09C)) 0x09 6 (mkFld 19 0 e.line)
  else { s with ras := { s.ras with repairs := s.ras.repairs ++ [e] } }

/-- Record the row of a BAD chunk of tier t (14 R392, `BAD_LASTt`). -/
def noteBadRow (s : State) (line t : Nat) : State :=
  let k := rk 0x0A (0x06C + 4 * t)
  let bank := lineBank line
  let row := physRow s t bank (lineRow line)
  let sor := b2n (decide (1024 ≤ row))
  let r := if 1024 ≤ row then row - 1024 else row
  let w := s.rg k
  if bit w 31 && fld w 9 0 == r && fld w 13 10 == bank && fld w 14 14 == sor then s.rgSet k (satInc w 23 16)
  else s.rgSet k (BitVec.ofNat 32 (0x80000000 + mkFld 9 0 r + mkFld 13 10 bank + mkFld 14 14 sor + mkFld 23 16 1))

/-- Feed the buckets and log an uncorrectable read (13 R348). -/
def countRead (s : State) (line : Nat) (r : LineRead) : State :=
  let s1 := r.badTiers.foldl (fun s t => noteBadRow (feedBucket s t 1) line t) s
  if r.ue && !r.badTiers.isEmpty then
    let s2 := r.badTiers.foldl (fun s t => countUe s t) s1
    logErr s2 0x09 1 (mkFld 19 0 line + mkFld 23 20 (r.badTiers.foldl min 15))
  else s1

/-- The seal of an uncorrectable read: the bytes as read, the spores as delivered (13 R350). -/
def sealLine (r : LineRead) : Line := { data := r.stored, sp0 := r.line.sp0, sp1 := r.line.sp1 }

/-- Count a read of a plain line and queue its follow-up unless the read is the read half of a partial write (13 R348). A repair or seal is
written with EPOCH 0 (04 R113). -/
def noteRead (s : State) (line : Nat) (r : LineRead) (followUp : Bool) : State :=
  let s0 := madeSpores (noteRecon s r) r.made
  let s1 :=
    if hasRepair s0 line then s0
    else
      let s' := countRead (noteHist s0 r.badTiers) line r
      if r.badTiers.isEmpty || !followUp then s'
      else queueRepair s' { line := line, isSeal := r.ue, copies := [line], data := if r.ue then sealLine r else r.line, epoch := 0, since := s.now }
  checkBurst s1

/-- epoch_cmp of R140: 1 copy A newer, 2 copy B newer, 0 neither. -/
def epochCmp (ea eb : Nat) : Nat :=
  let d := (ea + 16 - eb % 16) % 16
  if 1 ≤ d ∧ d ≤ 7 then 1 else if 9 ≤ d then 2 else 0

/-- Resolution of the two copies of a mirror line (04 R140). -/
structure MirrorRes where
  /-- The line delivered. -/
  line : Line
  /-- Epoch of the result. -/
  epoch : Nat
  /-- Copy A is rewritten. -/
  fixA : Bool
  /-- Copy B is rewritten. -/
  fixB : Bool
  /-- The row is marked DIVERGENT. -/
  divergent : Bool
  /-- Granules newly spored by the resolution. -/
  made : Nat
deriving DecidableEq, Repr

/-- Take granule 0 from one line and granule 1 from another, with given spores. -/
def mixLine (g0 g1 : LineBits) (sp0 sp1 : Bool) : Line :=
  { data := (g1 &&& (BitVec.allOnes 1024 <<< 512)) ||| (g0 &&& (BitVec.allOnes 1024 >>> 512)), sp0 := sp0, sp1 := sp1 }

/-- Granule g of line bits. -/
def granule (d : LineBits) (g : Nat) : GranuleBits := d.extractLsb' (512 * g) 512

/-- Resolve the copies (04 R140). -/
def resolveMirror (a b : LineRead) : MirrorRes :=
  let d := (a.epoch + 16 - b.epoch % 16) % 16
  let c := epochCmp a.epoch b.epoch
  if !a.ue && !b.ue then
    let same := a.line == b.line
    if c = 1 then ⟨a.line, a.epoch, false, true, false, 0⟩
    else if c = 2 then ⟨b.line, b.epoch, true, false, false, 0⟩
    else if same then ⟨a.line, a.epoch, false, decide (d = 8), false, 0⟩
    else
      let df := fun g (spa spb : Bool) => granule a.line.data g != granule b.line.data g || spa != spb
      let d0 := df 0 a.line.sp0 b.line.sp0
      let d1 := df 1 a.line.sp1 b.line.sp1
      ⟨{ a.line with sp0 := a.line.sp0 || d0, sp1 := a.line.sp1 || d1 }, (a.epoch + 1) % 16, true, true, true,
        b2n (d0 && !a.line.sp0) + b2n (d1 && !a.line.sp1)⟩
  else if !a.ue then ⟨a.line, a.epoch, false, true, false, 0⟩
  else if !b.ue then ⟨b.line, b.epoch, true, false, false, 0⟩
  else
    let lost := Config.lostMirror a.line.data b.line.data
    let pick := fun (ua ub spa spb : Bool) => -- the bytes and the spore of a granule
      if ua && ub || (ua || ub) && decide (d ≠ 0) then (lost, true)
      else if ua then (b.line.data, spb)
      else if ub then (a.line.data, spa)
      else if c = 2 then (b.line.data, spb)
      else (a.line.data, spa)
    let (g0, s0) := pick a.ue0 b.ue0 a.line.sp0 b.line.sp0
    let (g1, s1) := pick a.ue1 b.ue1 a.line.sp1 b.line.sp1
    let m := fun (ua ub stored : Bool) => b2n (((ua && ub) || ((ua || ub) && decide (d ≠ 0))) && !stored)
    ⟨mixLine g0 g1 s0 s1, if c = 2 then b.epoch else a.epoch, true, true, false,
      m a.ue0 b.ue0 (a.st0 || b.st0) + m a.ue1 b.ue1 (a.st1 || b.st1)⟩

/-- Count a mirror read and queue its repair unless the read belongs to a mirror write, which rewrites both copies (04 R139, R140;
13 R348). -/
def noteMirror (s : State) (la lb : Nat) (a b : LineRead) (followUp : Bool) : State :=
  let m := resolveMirror a b
  let s0 := madeSpores (noteRecon (noteRecon s a) b) m.made
  let s1 :=
    if hasRepair s0 la then s0
    else
      let s' := countRead (countRead (noteHist (noteHist s0 a.badTiers) b.badTiers) la a) lb b
      let s'' := if m.divergent then logErr s' 0x03 5 (mkFld 19 0 la)
        else if m.fixA || m.fixB then logErr s' 0x03 4 (mkFld 19 0 la) else s'
      if (m.fixA || m.fixB) && followUp then
        queueRepair s'' { line := la, isSeal := false, copies := (if m.fixA then [la] else []) ++ (if m.fixB then [lb] else []), data := m.line, epoch := m.epoch, since := s.now }
      else s''
  checkBurst s1

/-- Read a line as the thallus delivers it, both copies of a mirror line resolved, and count the read (04 R126, R138, R140; 13 R348). -/
def readCount (s : State) (line : Nat) : State × Line :=
  match mirrorTwin s line with
  | some b =>
    let ra := readLine s line
    let rb := readLine s b
    (noteMirror s line b ra rb true, (resolveMirror ra rb).line)
  | none =>
    let r := readLine s line
    (noteRead s line r true, r.line)

/-- Merge `n` bytes from byte `ofs` of `src` into a line, with the spore of each granule touched (04 R123, R124): a granule wholly
covered takes the write's spore, another keeps its own beside it. -/
def mergeLine (l : Line) (src : LineBits) (ofs n : Nat) (sp : Bool) : Line :=
  let mask := (BitVec.allOnes 1024 >>> (1024 - 8 * n)) <<< (8 * ofs)
  let d := (l.data &&& ~~~mask) ||| (src &&& mask)
  let touch := fun g => decide (ofs < 64 * (g + 1)) && decide (64 * g < ofs + n)
  let cover := fun g => decide (ofs ≤ 64 * g) && decide (64 * (g + 1) ≤ ofs + n)
  let f := fun g (old : Bool) => if cover g then sp else if touch g then old || sp else old
  { data := d, sp0 := f 0 l.sp0, sp1 := f 1 l.sp1 }

end Sys2Proof.Machine
end

