-- ==== Sys2Proof/Machine/Sram.lean ====
section
/-!
DEFINITION. SRAM words with SEC-DED, planted errors and the residue checks of the update engines (13_errors_poison_scrub.md R347, R355,
R373; 10_update_engines.md R268, R271).
-/

namespace Sys2Proof.Machine

/-- Record the set and way of a corrected cache or directory word (14 R392, R393). -/
def noteCeLast (s : State) (dom word : Nat) : State :=
  if dom = 12 ∨ dom = 13 ∨ dom = 14 then
    let k := if dom = 14 then rk 0x0A 0x0D4 else rk 0x0A 0x0D8
    let e := if dom = 12 then word / 16 else word
    let n := if dom = 14 then 9 else 12
    let w := s.rg k
    if bit w 31 && fld w 12 9 == e % n then s.rgSet k (setFld (satInc w 23 16) 8 0 (e / n))
    else s.rgSet k (BitVec.ofNat 32 (0x80000000 + mkFld 8 0 (e / n) + mkFld 12 9 (e % n) + mkFld 23 16 1))
  else s

/-- Read a word: none when it is sound, false when it was corrected and counted, true when it is uncorrectable and counted (R347). -/
def sramRead (s : State) (dom sub word : Nat) : State × Option Bool :=
  match s.ras.upsets.find? fun x => x.1 == dom && x.2.1 == sub && x.2.2.1 == word with
  | none => (s, none)
  | some x =>
    if x.2.2.2 then (countUe s dom, some true)
    else
      (noteCeLast (feedBucket { s with ras := { s.ras with upsets := s.ras.upsets.filter fun y => y != x } } dom 1) dom word, some false)

/-- A word of control SRAM is read: an uncorrectable one forces fail-stop, class CONTROL (R347, R366). `sub` is 0 the request table, 1 the
region table, its shadow copy from word 64 on, 2 the CAMs, their shadow copies from word 640 on, 3 the blocked queue. -/
def ctrlRead (s : State) (sub word : Nat) : State :=
  match sramRead s 18 sub word with
  | (s1, some true) =>
    let info := mkFld 5 0 18 + mkFld 23 6 word
    failStop (logErr s1 0x09 3 info) 5 0x09 3 info
  | (s1, _) => s1

/-- A look-up reads n words of control SRAM from word `lo` on (R347). -/
def ctrlScan (s : State) (sub lo n : Nat) : State :=
  (s.ras.upsets.filter fun x => x.1 == 18 && x.2.1 == sub && decide (lo ≤ x.2.2.1) && decide (x.2.2.1 < lo + n)).foldl
    (fun s x => ctrlRead s sub x.2.2.1) s

/-- A line access looks its row up in the CAMs of the tiers (13 R347; 14 R377). -/
def camRead (s : State) : State := ctrlScan s 2 0 640

/-- A word returned as read: an uncorrectable one is logged SRAM_UE; true when it was (R347). -/
def plainRead (s : State) (dom sub word : Nat) : State × Bool :=
  match sramRead s dom sub word with
  | (s1, some true) => (logErr s1 0x09 2 (mkFld 5 0 dom + mkFld 23 6 word), true)
  | (s1, _) => (s1, false)

/-- The data of a word returned as read: bits 0 and 1 stand inverted when it is uncorrectable (R373). -/
def asRead {n : Nat} (bad : Bool) (w : BitVec n) : BitVec n := if bad then w ^^^ BitVec.ofNat n 3 else w

/-- Physical engine of a position under the active map (10 R268). -/
def physOf (s : State) (pos : Nat) : Nat := s.rf (rk 0x06 (0x05C + 4 * (pos / 6))) (5 * (pos % 6) + 4) (5 * (pos % 6))

/-- Record a residue mismatch: kind 0 add, 1 lane read, 2 atomic, 3 optimizer (10 R271, R295). -/
def noteMismatch (s : State) (phys pos kind : Nat) : State :=
  let k := rk 0x06 (0x08C + 4 * (phys / 4))
  let lo := 8 * (phys % 4)
  let s1 := s.rgSet k (satInc (s.rg k) (lo + 7) lo)
  feedBucket (logErr s1 0x06 0 (mkFld 4 0 phys + mkFld 8 5 pos + mkFld 11 9 kind)) (20 + phys) 1

/-- One engine operation: true when its residue check mismatches (10 R271; 13 R373). -/
def engCheck (s : State) (phys pos kind : Nat) : State × Bool :=
  match s.ras.engUpsets.find? fun x => x.1 == phys with
  | some (_, n) =>
    let rest := s.ras.engUpsets.filter fun x => x.1 != phys
    let s1 := { s with ras := { s.ras with engUpsets := if n ≤ 1 then rest else (phys, n - 1) :: rest } }
    (noteMismatch s1 phys pos kind, true)
  | none =>
    if injArmed s (20 + phys) then
      let s1 := s.rgFld kInj 7 7 0
      let s2 := if s.rb kInj 6 then { s1 with ras := { s1.ras with engUpsets := (phys, 1) :: s1.ras.engUpsets } } else s1
      (noteMismatch s2 phys pos kind, true)
    else (s, false)

end Sys2Proof.Machine
end

