-- ==== Sys2Proof/Machine/Cache.lean ====
section
/-!
DEFINITION. The cache arrays, victim choice, fills, the writeback buffer and prefetch; directory lookup (11_cache.md R296-R309, R315;
12_coherence.md R322).
-/

namespace Sys2Proof.Machine

/-- cache_set() of R297. -/
def cacheSet (x : Nat) : Nat := (x ^^^ (x >>> 9)) % 512

/-- An invalid way. -/
def noWay : CWay := ⟨false, 0, 0, false, 0, false, false, false, false, 0⟩

/-- The way in a place. -/
def getWay (s : State) (set way : Nat) : CWay := smGetD s.cch.ways (set * 16 + way) noWay

/-- Write a way's tag word. -/
def putWay (s : State) (set way : Nat) (w : CWay) : State :=
  sramWrite { s with cch := { s.cch with ways := smSet s.cch.ways (set * 16 + way) w noWay } } 13 0 (set * 12 + way)

/-- Make a way INVALID; its MRU bit is cleared with its tag (R298). -/
def clearWay (s : State) (set way : Nat) : State :=
  putWay s set way { getWay s set way with st := 0, pf := false, mru := false }

/-- Write a way's tag and its 16 data words. -/
def putWayData (s : State) (set way : Nat) (w : CWay) : State := sramWriteN (putWay s set way w) 12 0 ((set * 12 + way) * 16) 16

/-- Tag word of a way (R298); ATAG is x without its low 9 bits. -/
def tagWord (w : CWay) : BitVec 64 :=
  BitVec.ofNat 64 (mkFld 35 0 (w.x / 512) + mkFld 36 36 (b2n w.space) + mkFld 37 37 w.cls + mkFld 38 38 (b2n w.sec) + mkFld 40 39 w.st
    + mkFld 41 41 (b2n w.sp0) + mkFld 42 42 (b2n w.sp1) + mkFld 43 43 (b2n w.pf))

/-- Read the tags of a set: an uncorrectable one forces fail-stop, class CACHE_TAG (R315). -/
def tagCheck (s : State) (set : Nat) : State :=
  (List.range 12).foldl (fun s w =>
    match sramRead s 13 0 (set * 12 + w) with
    | (s1, some true) =>
      let info := mkFld 8 0 set + mkFld 12 9 w
      failStop (logErr s1 0x04 0 info) 3 0x04 0 info
    | (s1, _) => s1) s

/-- The way that holds a line or is filling it. -/
def findWay (s : State) (space : Bool) (x : Nat) : Option Nat :=
  (List.range 12).find? fun w => let c := getWay s (cacheSet x) w; c.st != 0 && c.space == space && c.x == x

/-- Read a held line: an uncorrectable data word marks its granule (R315). -/
def readWay (s : State) (set way : Nat) : State × Line :=
  (List.range 16).foldl (fun (a : State × Line) i =>
    match sramRead a.1 12 0 ((set * 12 + way) * 16 + i) with
    | (s1, some true) =>
      let g := i / 8
      let c := getWay s1 set way
      let was := if g = 0 then c.sp0 else c.sp1
      let s2 := logErr (madeSpores s1 (b2n (!was))) 0x04 1 (mkFld 8 0 set + mkFld 12 9 way + mkFld 15 13 (i % 8) + mkFld 16 16 g)
      let s3 : State := { s2 with cch := { s2.cch with
        ways := smSet s2.cch.ways (set * 16 + way) { c with sp0 := c.sp0 || g == 0, sp1 := c.sp1 || g == 1 } noWay } }
      (s3, { data := a.2.data ^^^ (3#1024 <<< (64 * i)), sp0 := a.2.sp0 || g == 0, sp1 := a.2.sp1 || g == 1 })
    | (s1, _) => (s1, a.2)) (s, let c := getWay s set way; ⟨c.data, c.sp0, c.sp1⟩)

/-- Way mask of a request's class (R300). -/
def wayMask (s : State) (h : BitVec 256) : Nat :=
  match hSrcType h with
  | 2 => s.rf (rk 0x04 0x050) 11 0
  | 3 => s.rf (rk 0x04 0x054) 11 0
  | _ => s.rf (rk 0x04 0x04C) 11 0

/-- victim() of R302. -/
def victim (s : State) (set mask : Nat) : Option Nat :=
  let ok := (List.range 12).filter fun w => mask.testBit w && (getWay s set w).st != 3
  match ok.find? fun w => (getWay s set w).st == 0 with
  | some w => some w
  | none =>
    match ok.find? fun w => !(getWay s set w).mru with
    | some w => some w
    | none => ok.head?

/-- touch() of R302. -/
def touch (s : State) (set way mask : Nat) : State :=
  let s1 := { s with cch := { s.cch with ways := smSet s.cch.ways (set * 16 + way) { getWay s set way with mru := true } noWay } }
  let ms := (List.range 12).filter fun v => mask.testBit v
  if ms.all fun v => let c := getWay s1 set v; c.st == 0 || c.mru then
    (ms.filter fun v => v != way).foldl (fun s v =>
      { s with cch := { s.cch with ways := smSet s.cch.ways (set * 16 + v) { getWay s set v with mru := false } noWay } }) s1
  else s1

/-- The line a request names: space and line index (R297). -/
def reqLine (h : BitVec 256) : Bool × Nat :=
  if hSpace h = 1 then (true, (hAddr h % 2 ^ 52) / 128) else (false, hOffset h / 128)

/-- Fabric address of a line (03 R78, R80). -/
def lineAddr (s : State) (space : Bool) (x : Nat) : Nat :=
  if space then 2 ^ 52 + x * 128 else s.straps.chip * 2 ^ 37 + s.straps.tile * 2 ^ 29 + x * 128

/-- The host agent, when `HOST_AGENT.VALID` = 1. -/
def hostAgent (s : State) : Option Nat := if s.rb (rk 0x04 0x05C) 31 then some (s.rf (rk 0x04 0x05C) 9 0) else none

/-- NO_HOST (R319). -/
def noHost (s : State) (op id typ : Nat) : State := logErr s 0x04 5 (mkFld 6 0 op + mkFld 16 7 id + mkFld 18 17 typ)

/-- Payload flits of a line, the spore of its granule on each flit (02 R44). -/
def lineFlits (l : Line) : List CData :=
  (List.range 4).map fun i => ⟨l.data.extractLsb' (256 * i) 256, if i < 2 then l.sp0 else l.sp1⟩

/-- Send a request of the slice's own to the host agent (R304, R306). -/
def sendHost (s : State) (agent op size cls txn addr : Nat) (pl : List CData) (at_ : Nat) : State :=
  send s { vc := 0, head := mkHead op 0 (mkFld 4 4 cls + mkFld 6 5 1 + mkFld 9 7 size) txn (own s) (2, agent, s.straps.chip) addr 0
           payload := pl, readyAt := at_, pull := none }

/-- Present a burst on a line to the arbiter from the next sclk on (17 R453, R457); `rg` is the region that the access goes by (03 R105). -/
def queueBurst (s : State) (rid : Nat) (kind : BKind) (line : Nat) (rg : Option Region) (reads writes : Bool) : State :=
  { s with arb := { s.arb with queue := s.arb.queue ++
      [{ rid := rid, kind := kind, line := line, writes := writes, reads := reads, since := s.now + 1, twin := regionTwin rg line }] } }

/-- A line of the writeback buffer: the newest that holds the line. -/
def wbFind (s : State) (space : Bool) (x : Nat) : Option (Nat × WbEnt) :=
  (s.cch.wb.filter fun e => e.2.space == space && e.2.x == x).foldl
    (fun a e => match a with | some b => if b.2.ord < e.2.ord then some e else a | none => some e) none

/-- A free buffer line. -/
def wbFree (s : State) : Option Nat := (List.range 8).find? fun b => (smGet s.cch.wb b).isNone

/-- A free place for a line that a class without ways writes to the backing store directly: places 8-71, which the buffer does not count (R301;
notes/assumptions/58.md). -/
def directFree (s : State) : Option Nat := ((List.range 64).find? fun b => (smGet s.cch.wb (8 + b)).isNone).map (8 + ·)

/-- Lines in the writeback buffer. -/
def wbUsed (s : State) : Nat := s.cch.wb.countP fun e => decide (e.1 < 8)

/-- TXN of the `WR_LINE` of a buffer line or a direct write (notes/assumptions/7.md). -/
def wbTxn (b : Nat) : Nat := if b < 8 then 0x28 + b else 0x80 + (b - 8)

/-- Start the writeback of a buffer line (R306). -/
def startWb (s : State) (b : Nat) (e : WbEnt) : State :=
  if e.space then
    match hostAgent s with
    | some a =>
      sendHost { s with cch := { s.cch with wb := smPut s.cch.wb b { e with since := s.now + 1, failedAt := none } } }
        a 0x06 7 e.cls (wbTxn b) (lineAddr s true e.x) (lineFlits e.line) (s.now + 1)
    | none =>
      noHost { s with cch := { s.cch with wb := smPut s.cch.wb b { e with failedAt := some s.now } } } 0x06 s.straps.tile 1
  else
    let rg := regionAt s (e.x / 32)
    queueBurst { s with cch := { s.cch with wb := smPut s.cch.wb b e } } 2 (.wback b) e.x rg (regionTwin rg e.x).isSome true

/-- Put a line on its way to the backing store in place b of the buffer, or of the direct writes. -/
def enterAt (s : State) (b : Nat) (space : Bool) (x set way cls : Nat) (l : Line) (waiters : List Nat) : State :=
  startWb s b { space := space, x := x, line := l, set := set, way := way, cls := cls, since := s.now, failedAt := none, stalled := false
                waiters := waiters, ord := s.cch.wb.foldl (fun m e => max m (e.2.ord + 1)) 0 }

/-- Put a line into the writeback buffer; none when it is full. -/
def enterWb (s : State) (space : Bool) (x set way cls : Nat) (l : Line) (waiters : List Nat) : Option State :=
  (wbFree s).map fun b => enterAt s b space x set way cls l waiters

/-- Move a DIRTY way's line into the buffer; the way is left to the caller. -/
def wayToWb (s : State) (set way : Nat) (waiters : List Nat) : Option State :=
  let c := getWay s set way
  let (s1, l) := readWay s set way
  enterWb s1 c.space c.x set way c.cls l waiters

/-- Outcome of a try to allocate a way (R303): 0 no way, 1 no buffer line. -/
inductive Alloc where
  | wait (why : Nat)
  | got (set way : Nat)
deriving DecidableEq, Repr

/-- Take a way for a line: the victim leaves, the way holds the new tag in state `st` (R303). -/
def allocWay (s : State) (mask : Nat) (space : Bool) (x cls : Nat) (sec : Bool) (st : Nat) : State × Alloc :=
  let set := cacheSet x
  match victim s set mask with
  | none => (s, .wait 0)
  | some w =>
    let v := getWay s set w
    let go := fun (s : State) =>
      (putWay s set w { space := space, x := x, cls := cls, sec := sec, st := st, sp0 := false, sp1 := false, pf := false, mru := false, data := 0 }, Alloc.got set w)
    if v.st = 2 then
      match wayToWb s set w [] with
      | none => (s, .wait 1)
      | some s1 => go s1
    else go s

/-- Install a line into a way (R304). -/
def installWay (s : State) (set way : Nat) (l : Line) (st : Nat) (pf : Bool) : State :=
  putWayData s set way { getWay s set way with st := st, sp0 := l.sp0, sp1 := l.sp1, data := l.data, pf := pf }

/-- Start the fill of a way in FILL (R304); `txn` is used for cached space. -/
def startFill (s : State) (rg : Option Region) (set way : Nat) (pf : Bool) (txn : Nat) (at_ : Nat) : State :=
  let c := getWay s set way
  if c.space then
    match hostAgent s with
    | some a =>
      sendHost { s with cch := { s.cch with fills := s.cch.fills ++ [⟨set, way, pf, some txn, at_⟩] } } a 0x01 7 c.cls txn (lineAddr s true c.x) [] at_
    | none => s
  else
    queueBurst { s with cch := { s.cch with fills := s.cch.fills ++ [⟨set, way, pf, none, s.now⟩] } }
      (if pf then 9 else 1) (if pf then .prefetch set way else .fill set way) c.x rg true false

/-- The fill of a way. -/
def fillOf (s : State) (set way : Nat) : Option FillEnt := s.cch.fills.find? fun f => f.set == set && f.way == way

/-- Drop the fill record of a way. -/
def dropFill (s : State) (set way : Nat) : State :=
  { s with cch := { s.cch with fills := s.cch.fills.filter fun f => !(f.set == set && f.way == way) } }

/-- Prefetches outstanding. -/
def pfOut (s : State) : Nat := s.cch.fills.countP (·.pf)

/-! ### Directory lookup -/

/-- Physical ways in use: the eight lowest that are not retired, a way being swept counting as not retired (12 R322, R344). -/
def dirWays (s : State) : List Nat :=
  ((List.range 9).filter fun w => !(s.rb (rk 0x05 0x054) w) || s.dir.sweep.testBit w).take 8

/-- The place and entry of a line. -/
def dirFind (s : State) (space : Bool) (x : Nat) : Option (Nat × DirEnt) :=
  (dirWays s).findSome? fun w =>
    match smGet s.dir.ents (cacheSet x * 16 + w) with
    | some e => if e.space == space && e.x == x then some (cacheSet x * 16 + w, e) else none
    | none => none

/-- Class and security of a line that an access would install: the region's that it goes by for pinned space, and for cached space the
class the directory has for the line, else the request's (R298, R299). -/
def lineAttrs (s : State) (rg : Option Region) (space : Bool) (x reqCls : Nat) : Nat × Bool :=
  if space then ((match dirFind s true x with | some (_, e) => e.cls | none => reqCls), false)
  else match rg with
    | some r => (r.cls, r.secure)
    | none => (reqCls, false)

/-! ### Prefetch -/

/-- A candidate is dropped or a prefetch fails. -/
def pfDrop (s : State) : State := s.bump (rk 0x04 0x074)

/-- A demand request uses a prefetched line (R308). -/
def usePrefetch (s : State) (set way : Nat) : State :=
  let c := getWay s set way
  if c.pf then pmuEv ((putWay s set way { c with pf := false }).bump (rk 0x04 0x070)) 0x44 1 else s

/-! ### Data of requests and responses (02 R44, R59) -/

/-- Payload of a write placed within its line. -/
def payloadBits (h : BitVec 256) (p : List CData) : LineBits :=
  let base := if hSize h ≤ 5 then (hAddr h % 128) / 32 else if hSize h = 6 then (hAddr h % 128) / 64 * 2 else 0
  p.zipIdx.foldl (fun (a : LineBits) e => a ||| ((e.1.data.setWidth 1024 : LineBits) <<< (256 * (base + e.2)))) 0

/-- A full-line payload. -/
def payloadLine (p : List CData) : Line :=
  let sp := fun i => match p[i]? with | some f => f.spore | none => false
  { data := p.zipIdx.foldl (fun (a : LineBits) e => a ||| ((e.1.data.setWidth 1024 : LineBits) <<< (256 * e.2))) 0, sp0 := sp 0 || sp 1, sp1 := sp 2 || sp 3 }

/-- The line after a `WR`, `WR_LINE`, `ST_PUSH` or `MT_ZERO_PA` (R306, R311; 04 R123). -/
def applyWrite (l : Line) (h : BitVec 256) (p : List CData) : Line :=
  if hOpcode h = 0x26 then Line.zero
  else if hSize h = 7 then payloadLine p
  else mergeLine l (payloadBits h p) (hAddr h % 128) (2 ^ hSize h) (p.any (·.spore))

/-- Data flits of a read response and whether a granule of its data carries a spore (02 R59, R62). -/
def readFlits (l : Line) (h : BitVec 256) : List CData × Bool :=
  let ofs := hAddr h % 128
  if hSize h ≤ 5 then
    let n := 2 ^ hSize h
    let sp := sporeOf l ofs
    let d := l.data.extractLsb' (256 * (ofs / 32)) 256
    let mask := (BitVec.allOnes 256 >>> (256 - 8 * n)) <<< (8 * (ofs % 32))
    ([⟨d &&& mask, sp⟩], sp)
  else if hSize h = 6 then
    let g := ofs / 64
    let sp := if g = 0 then l.sp0 else l.sp1
    ((List.range 2).map fun i => ⟨l.data.extractLsb' (256 * (2 * g + i)) 256, sp⟩, sp)
  else (lineFlits l, l.sp0 || l.sp1)

/-- Sclk of the header of a data response that the home gives now (11, timing of a hit). -/
def homeAt (s : State) (r : Req) : Nat := max (s.now + 3) (r.arrived + 14)

end Sys2Proof.Machine
end

