-- ==== Sys2Proof/Machine/Coherence.lean ====
section
/-!
DEFINITION. The home: directory entries, ordering, transactions, forwards and snoops, what each request does to the home copy, writebacks,
timeouts (12_coherence.md R320-R344; 11_cache.md R301-R314).
-/

namespace Sys2Proof.Machine

/-! ### Directory entries -/

/-- Tag and state word of an entry (12 R323, R324). -/
def dirTag (e : DirEnt) : BitVec 48 := BitVec.ofNat 48 (mkFld 35 0 (e.x / 512) + mkFld 36 36 (b2n e.space) + 2 ^ 37)

/-- State word; `busy` is BUSY. -/
def dirState (e : DirEnt) (busy : Bool) : BitVec 64 :=
  BitVec.ofNat 64 (mkFld 2 0 e.st + mkFld 3 3 e.cls + mkFld 4 4 (b2n e.bcast) + mkFld 5 5 (b2n busy) + mkFld 8 6 e.ptrs.length + mkFld 10 9 e.fidx +
    (e.ptrs.zipIdx.map fun p => mkFld (10 * p.2 + 21) (10 * p.2 + 12) p.1).foldl (· + ·) 0)

/-- Store an entry. -/
def putDir (s : State) (k : Nat) (e : DirEnt) : State :=
  let w := k / 16 * 9 + k % 16
  sramWrite (sramWrite { s with dir := { s.dir with ents := smPut s.dir.ents k e } } 14 0 w) 14 1 w

/-- Free an entry. -/
def freeDir (s : State) (k : Nat) : State :=
  sramWrite { s with dir := { s.dir with ents := smDel s.dir.ents k } } 14 0 (k / 16 * 9 + k % 16)

/-- A word of the directory is uncorrectable, 0 the tag and 1 the state word: fail-stop, class DIRECTORY (12 R341). -/
def dirUe (s : State) (set way sub : Nat) : State :=
  let info := mkFld 8 0 set + mkFld 12 9 way + mkFld 13 13 sub
  failStop (logErr s 0x05 0 info) 4 0x05 0 info

/-- Read a set's tags and state words (12 R341). -/
def dirCheck (s : State) (set : Nat) : State :=
  (List.range 18).foldl (fun s i =>
    match sramRead s 14 (i % 2) (set * 9 + i / 2) with
    | (s1, some true) => dirUe s1 set (i / 2) (i % 2)
    | (s1, _) => s1) s

/-- Consider line x + 1 after a demand miss on line x of class `cls` (11 R307, R308). While a quench is in force the arbiter gets no new
candidates (17 R462); a candidate of cached space without a host agent fails before it takes a way (11 R305). -/
def considerPrefetch (s : State) (space : Bool) (x cls : Nat) : State :=
  let y := x + 1
  let set := cacheSet y
  let barred := !space && (match s.fab.quench with | some q => decide (q + 2 ≤ s.now) | none => false)
  if barred || failed s then s
  else if !s.rb (rk 0x04 0x060) 0 || x % 32 == 31 then pfDrop s
  else if space && cachedHome (goodTiles s) (y * 128) != some s.straps.tile then pfDrop s
  else
    let s1 := tagCheck s set
    if failed s1 then s1
    else if (findWay s1 space y).isSome || (wbFind s1 space y).isSome then pfDrop s1
    else
      let s2 := dirCheck s1 set
      if failed s2 then s2
      else if (dirFind s2 space y).isSome || decide (s2.rf (rk 0x04 0x060) 3 1 ≤ pfOut s2) || (space && (hostAgent s2).isNone) then pfDrop s2
      else
        let mask := s2.rf (rk 0x04 0x058) 11 0
        match victim s2 set mask with
        | none => pfDrop s2
        | some w =>
          if (getWay s2 set w).st = 2 then pfDrop s2
          else
            let rg := regionAt s2 (y / 32)
            let (c, sec) := lineAttrs s2 rg space y cls
            match allocWay s2 mask space y c sec 3 with
            | (s3, .got set w) =>
              let used := s3.cch.fills.filterMap fun f => if f.pf then f.txn else none
              let txn := ((List.range 4).find? fun i => !(used.contains (0x20 + i))).getD 0 + 0x20
              pmuEv ((startFill s3 rg set w true txn (s3.now + 12)).bump (rk 0x04 0x06C)) 0x43 1
            | (s3, .wait _) => pfDrop s3

/-- The entry records no copy: the line is in state I. -/
def DirEnt.isI (e : DirEnt) : Bool := e.ptrs.isEmpty && !e.bcast

/-- The holder, owner or forwarder of an entry. -/
def DirEnt.holder (e : DirEnt) : Nat := nth e.ptrs e.fidx 0

/-- A core leaves (12 R324, R328, R329): the pointers stay packed; the state follows from who remains. -/
def DirEnt.drop (e : DirEnt) (core : Nat) : DirEnt :=
  match e.ptrs.findIdx? (· == core) with
  | none => e
  | some i =>
    let ps := e.ptrs.eraseIdx i
    let named := i == e.fidx && decide (2 ≤ e.st)
    let f := if i < e.fidx then e.fidx - 1 else e.fidx
    if e.st = 2 then
      (if ps.isEmpty then { e with st := 1, fidx := 0, ptrs := ps } else { e with fidx := if named then 0 else f, ptrs := ps })
    else if named then { e with st := 1, fidx := 0, ptrs := ps }
    else { e with fidx := f, ptrs := ps }

/-- A core becomes a sharer (12 R328, R332): the next free pointer, or BCAST; a class W line with a recorded sharer is in state F
(R325). -/
def DirEnt.record (e : DirEnt) (core : Nat) : DirEnt :=
  if e.ptrs.contains core then e
  else if e.ptrs.length < 4 then
    let e1 := { e with ptrs := e.ptrs ++ [core] }
    if e.cls = 0 ∧ e.st = 1 then { e1 with st := 2, fidx := e.ptrs.length } else e1
  else { e with bcast := true }

/-! ### Transactions -/

/-- Open transaction by key. -/
def getTxn (s : State) (k : Nat) : Option Txn := smGet s.dir.txns k
/-- Store a transaction. -/
def putTxn (s : State) (k : Nat) (t : Txn) : State := { s with dir := { s.dir with txns := smPut s.dir.txns k t } }

/-- Every forward and snoop of the transaction has been answered. -/
def Txn.settled (t : Txn) : Bool := t.awaits.all fun w => w.answered && (!w.miss || w.wb)

/-- All parts of the transaction are done; only its response may still wait to leave. -/
def Txn.over (t : Txn) : Bool :=
  t.stage == 4 && t.settled && t.merge.isNone && !t.mark && (t.ack.isNone || t.acked)

/-- A transaction on the line is open (12 R330). -/
def lineBusy (s : State) (space : Bool) (x : Nat) : Bool := s.dir.txns.any fun t => t.2.space == space && t.2.x == x

/-- Atomic of the engines (10 R276). -/
def isEngAtomic (h : BitVec 256) : Bool := isAtomic (hOpcode h)

/-- The line is busy only because of earlier atomics that have reached their engine (12 R330). -/
def busyByAtomics (s : State) (space : Bool) (x : Nat) : Bool :=
  (s.dir.txns.filter fun t => t.2.space == space && t.2.x == x).all fun t =>
    match getReq s t.1 with
    | some r => isEngAtomic r.head && (r.phase == .engine || (match r.phase with | .waitEng _ => true | _ => false))
    | none => false

/-- The line is busy only with atomics, wherever they stand. -/
def onlyAtomics (s : State) (space : Bool) (x : Nat) : Bool :=
  (s.dir.txns.filter fun t => t.2.space == space && t.2.x == x).all fun t =>
    match getReq s t.1 with | some r => isEngAtomic r.head | none => false

/-- A request to the line stands in this phase without a transaction of its own: an atomic behind others, or maintenance held at a fill. -/
def parkedFor (s : State) (space : Bool) (x : Nat) : Bool :=
  s.fab.reqs.any fun e => reqLine e.2.head == (space, x) && (getTxn s e.1).isNone &&
    (match e.2.phase with | .behind => true | .waitFill _ _ => isMaintPa (hOpcode e.2.head) | _ => false)

/-- Earlier requests to the line wait in the blocked queue. -/
def blockedFor (s : State) (space : Bool) (x : Nat) : Bool :=
  s.dir.blocked.any fun b => match getReq s b with | some r => reqLine r.head == (space, x) | none => false

/-- A coherent read: `RD_SHARED` or `RD_UNIQUE` with SPEC = 0 (12 R320). -/
def isCohRead (h : BitVec 256) : Bool := (hOpcode h == 2 || hOpcode h == 3) && !hSpec h

/-- A read served as a snapshot: SPEC = 1 or `RD_NOALLOC` (11 R309). -/
def isSnapshot (h : BitVec 256) : Bool := hSpec h || hOpcode h == 4

/-- TXN of the home's forwards and snoops for a transaction (notes/assumptions/7.md). -/
def wireTxn (k : Nat) : Nat := if k < 64 then 0x80 + k else if k < 128 then 0xC0 + (k - 64) else 0x24

/-- PARAM of a forward: the requester (02 R57). -/
def fwdParam (h : BitVec 256) : Nat := mkFld 9 0 (hSrcId h) + mkFld 11 10 (hSrcType h) + mkFld 26 12 (hSrcChip h) + mkFld 34 27 (hTxn h)

/-- Send one forward or snoop of transaction k, the i-th of a burst (02 R51, R57; 12 R337). -/
def sendFwd (s : State) (k : Nat) (t : Txn) (core op i : Nat) : State × Await :=
  let at_ := s.now + 2 + i
  let (attrs, addr, par) := match getReq s k with
    | some r => (fld r.head 23 12, hAddr r.head, if op ≤ 0x42 then fwdParam r.head else 0)
    | none => (mkFld 6 5 1 + mkFld 9 7 7, lineAddr s t.space t.x, 0)
  let s1 := send s { vc := 1, head := mkHead op 0 attrs (wireTxn k) (own s) (0, core, s.straps.chip) addr par
                     payload := [], readyAt := at_, pull := none }
  (s1, ⟨core, op, at_, false, false, false, false⟩)

/-- The packet is this message of transaction k on its way out. -/
def isMsg (s : State) (k : Nat) (t : Txn) (w : Await) (o : OutPkt) : Bool :=
  o.vc == 1 && hOpcode o.head == w.op && hTxn o.head == wireTxn k && hDst o.head == (0, w.core, s.straps.chip) &&
    (decide (k < 128) || hAddr o.head == lineAddr s t.space t.x)

/-- A forward or snoop leaves: it is counted, and its timeout runs from now on (12 R340, R345). -/
def msgLeft (s : State) (o : OutPkt) : State :=
  let s1 := if hOpcode o.head ≤ 0x42 then pmuEv (s.bump (rk 0x05 0x058)) 0x48 1 else pmuEv (s.bump (rk 0x05 0x05C)) 0x49 1
  match s1.dir.txns.findSome? fun e => (e.2.awaits.zipIdx.find? fun w => !w.1.left && isMsg s1 e.1 e.2 w.1 o).map fun w => (e.1, e.2, w.1, w.2) with
  | some (k, t, w, i) => putTxn s1 k { t with awaits := t.awaits.set i { w with left := true, since := s1.now } }
  | none => s1

/-- Send a list of forwards and snoops, recorded in the transaction. -/
def sendAll (s : State) (k : Nat) (t : Txn) (msgs : List (Nat × Nat)) : State × Txn :=
  msgs.zipIdx.foldl (fun (a : State × Txn) m =>
    let (s1, w) := sendFwd a.1 k a.2 m.1.1 m.1.2 m.2
    (s1, { a.2 with awaits := a.2.awaits ++ [w] })) (s, t)

/-- Cores of every good tile of the chip (12 R337). -/
def allCores (s : State) : List Nat := (goodTiles s).flatMap fun t => (List.range 4).map fun c => 4 * t + c

/-- hops() of R329. -/
def hops (ta tb : Nat) : Nat :=
  let d := fun (a b : Nat) => if a ≤ b then b - a else a - b
  d (ta % 16) (tb % 16) + d (ta / 16) (tb / 16)

/-- pick() of R329: none for HOME or NONE. -/
def pick (s : State) (space : Bool) (x : Nat) (e : DirEnt) (req : Nat) : Option Nat :=
  let home := decide (e.st ≤ 2) &&
    (match findWay s space x with | some w => let st := (getWay s (cacheSet x) w).st; st == 1 || st == 2 | none => false)
  let start : Option Nat × Nat := if home then (none, hops s.straps.tile (req / 4)) else (none, 100000)
  let cs := sortBy (fun a b => decide (a ≤ b)) (e.ptrs.filter fun c => c != req)
  (cs.foldl (fun (a : Option Nat × Nat) c => if hops (c / 4) (req / 4) < a.2 then (some c, hops (c / 4) (req / 4)) else a) start).1

/-! ### Closing -/

/-- Free the entry of a line in state I. -/
def cleanDir (s : State) (space : Bool) (x : Nat) : State :=
  match dirFind s space x with
  | some (k, e) => if e.isI then freeDir s k else s
  | none => s

/-- The answer to the request in an entry waits to leave. -/
def answerWaits (s : State) (k : Nat) : Bool :=
  match getReq s k with | some r => s.fab.out.any (answersTuple r.head) | none => false

/-- Close a transaction whose parts are all done and whose response has left, or whose `RSP_ACK` has come (12 R330): its request table entry
is freed. -/
def closeIfDone (s : State) (k : Nat) : State :=
  match getTxn s k with
  | some t =>
    if t.over && (t.ack.isSome || !answerWaits s k) then
      let s1 := cleanDir { s with dir := { s.dir with txns := smDel s.dir.txns k } } t.space t.x
      if k < 64 then freeReq s1 k else s1
    else s
  | none => s

/-- A request that has been answered stands in no engine's queue. -/
def leaveEng (s : State) (k : Nat) : State :=
  if s.upd.queues.any fun q => q.2.contains k then
    { s with upd := { s.upd with queues := (s.upd.queues.map fun q => (q.1, q.2.filter (· != k))).filter fun q => !q.2.isEmpty } }
  else s

/-- The response has left: the transaction waits for what remains. -/
def responded (s0 : State) (k : Nat) : State :=
  let s := leaveEng s0 k
  match getTxn s k with
  | some t => closeIfDone (setPhase (putTxn s k { t with stage := 4 }) k .home) k
  | none => freeReq s k

/-- Answer a request at the home with `RSP_COMP` (12 R334, R340). -/
def homeComp (s : State) (slot code : Nat) (at_ : Nat) : State :=
  match getReq s slot with
  | none => s
  | some r =>
    let lost := match getTxn s slot with | some t => t.poison | none => false
    let c := if lost && code == ok then okPoison else code
    responded (answerOpen s r.head r.vc c 0 at_) slot

/-- Answer a read at the home with the data of a line; a coherent read then awaits `RSP_ACK` and its requester is recorded (12 R332). -/
def homeData (s : State) (slot : Nat) (l0 : Line) : State :=
  match getReq s slot with
  | none => s
  | some r =>
    let h := r.head
    let lost := match getTxn s slot with | some t => t.poison | none => false
    let l := if lost then { l0 with sp0 := true, sp1 := true } else l0
    let (fl, p) := readFlits l h
    let s0 := if hSpec h then pmuReq (s.bump (rk 0x04 0x078)) 0x42 h else s
    let at_ := homeAt s r
    let s1 := answerData s0 h (if p then okPoison else ok) fl at_
    match getTxn s1 slot with
    | some t =>
      if isCohRead h then
        let core := hSrcId h
        let s2 := match dirFind s1 t.space t.x with
          | some (k, e) =>
            if hOpcode h = 3 then putDir s1 k { e with st := 3, fidx := 0, ptrs := [core], bcast := false }
            else putDir s1 k (e.record core)
          | none => s1
        responded (putTxn s2 slot { t with ack := some at_ }) slot
      else responded s1 slot
    | none => freeReq s1 slot

/-! ### The home copy -/

/-- Merge a whole newer line into the home copy as DIRTY (12 R332, under R302, R303 or R301); none when it must wait, with the reason. A
`WB_DIRTY` touches the line, recalled data does not (11 R302). -/
def mergeHome (s : State) (rg : Option Region) (space : Bool) (x reqCls mask : Nat) (touches : Bool) (l : Line) : State × Option Nat :=
  let set := cacheSet x
  let touched := fun (s : State) (w : Nat) => if touches then touch s set w mask else s
  match findWay s space x with
  | some w => (touched (installWay s set w l 2 (getWay s set w).pf) w, none)
  | none =>
    let (cls, sec) := lineAttrs s rg space x reqCls
    if mask = 0 then
      match directFree s with
      | some b => (enterAt s b space x set 0 cls l [], none)
      | none => (s, some 1)
    else
      match allocWay s mask space x cls sec 2 with
      | (s1, .got set w) => (touched (installWay s1 set w l 2 false) w, none)
      | (s1, .wait n) => (s1, some n)

/-- Core class mask, for data a core sends without a request of its own. -/
def coreMask (s : State) : Nat := s.rf (rk 0x04 0x04C) 11 0

/-- Mark both granules of a line; those that carried no spore count as made (13 R352). -/
def markLine (s : State) (l : Line) : State × Line := (madeSpores s (b2n (!l.sp0) + b2n (!l.sp1)), { l with sp0 := true, sp1 := true })

/-- The home copy where the slice holds it, both granules marked (12 R340). -/
def poisonedCopy (s : State) (space : Bool) (x : Nat) : Option (State × Line) :=
  match findWay s space x with
  | some w =>
    if (getWay s (cacheSet x) w).st = 3 then none
    else
      let (s1, l) := readWay s (cacheSet x) w
      some (markLine s1 l)
  | none => (wbFind s space x).map fun e => markLine s e.2.line

/-- A line of which only the loss is known: its data is a free value and both granules carry a spore (12 R340; notes/assumptions/5.md). -/
def lostLine (s : State) : State × Line := markLine { s with drawn := s.drawn + 1 } ⟨Config.freeValue s.drawn, false, false⟩

/-- Note that an entry waits, keeping the start of a wait of the same kind (13 R364). -/
def waitFor (s : State) (slot why : Nat) : State :=
  match getReq s slot with
  | some r =>
    let ph := match why, r.phase with
      | 0, .waitWay n => Phase.waitWay n
      | 1, .waitWb n => Phase.waitWb n
      | 0, _ => .waitWay s.now
      | _, _ => .waitWb s.now
    setReq s slot { r with phase := ph }
  | none => s

/-- Demand hit or miss counts (11 R318; 18 R467). -/
def countHit (s : State) (hit : Bool) (h : BitVec 256) : State :=
  if hit then pmuReq (s.bump (rk 0x04 0x064)) 0x40 h else pmuReq (s.bump (rk 0x04 0x068)) 0x41 h

/-- Count a request whose CLS differs from the tag's, once for each request (11 R299). -/
def countCls (s : State) (space : Bool) (x : Nat) (h : BitVec 256) : State :=
  match findWay s space x with
  | some w => if space && (getWay s (cacheSet x) w).cls != hCls h then s.bump (rk 0x04 0x080) else s
  | none => s

/-- Read the backing store without allocating (11 R301, R309). -/
def readBacking (s : State) (slot : Nat) (r : Req) (x : Nat) (space : Bool) : State :=
  if space then
    match hostAgent s with
    | some a =>
      sendHost (setPhase { s with cch := { s.cch with host := s.cch.host ++ [⟨slot, true, s.now + 2⟩] } } slot .home)
        a 0x01 7 (hCls r.head) (0x40 + slot) (lineAddr s true x) [] (s.now + 2)
    | none => homeComp (noHost s (hOpcode r.head) (hSrcId r.head) (hSrcType r.head)) slot nackBusy (s.now + 1)
  else queueBurst (setPhase s slot .thallus) 1 (.snapRead slot) x r.rgn true false

/-- Write the backing store directly (11 R301, R311). -/
def writeBacking (s : State) (slot : Nat) (r : Req) (x : Nat) (space : Bool) : State :=
  let h := r.head
  if space then
    match hostAgent s with
    | some a =>
      let zero := hOpcode h == 0x26
      let pl := if zero then lineFlits Line.zero else r.payload
      sendHost (setPhase { s with cch := { s.cch with host := s.cch.host ++ [⟨slot, false, s.now + 2⟩] } } slot .home)
        a (if hSize h = 7 then 0x06 else 0x05) (hSize h) (hCls h) (0x40 + slot) (2 ^ 52 + hAddr h % 2 ^ 52) pl (s.now + 2)
    | none => homeComp (noHost s (hOpcode h) (hSrcId h) (hSrcType h)) slot nackBusy (s.now + 1)
  else
    queueBurst (setPhase s slot .thallus) 1 (.uncWrite slot) x r.rgn (hSize h != 7 || (regionTwin r.rgn x).isSome) true

/-- Serve a read from the home copy (11 R302-R309; 12 R332). `fromFill`: the entry waited for this fill. -/
def serveRead (s : State) (slot : Nat) (r : Req) (fromFill : Bool) : State :=
  let h := r.head
  let (space, x) := reqLine h
  let set := cacheSet x
  let mask := wayMask s h
  let still := isSnapshot h || mask == 0
  match findWay s space x with
  | some w =>
    if (getWay s set w).st = 3 then
      let s1 := if isSnapshot h || fromFill then s else countHit s false h
      setPhase s1 slot (.waitFill set w)
    else
      let s1 := if isSnapshot h then s else touch (usePrefetch (if fromFill then s else countHit s true h) set w) set w mask
      let (s2, l) := readWay s1 set w
      homeData s2 slot l
  | none =>
    match wbFind s space x with
    | some (_, e) =>
      if still then homeData s slot e.line
      else
        let (cls, sec) := lineAttrs s r.rgn space x (hCls h)
        match allocWay s mask space x cls sec 2 with
        | (s1, .got set w) => considerPrefetch (homeData (touch (installWay (countHit s1 false h) set w e.line 2 false) set w mask) slot e.line) space x cls
        | (s1, .wait n) => waitFor s1 slot n
    | none =>
      if still then readBacking (if isSnapshot h then s else countHit s false h) slot r x space
      else if space && (hostAgent s).isNone then
        homeComp (noHost s (hOpcode h) (hSrcId h) (hSrcType h)) slot nackBusy (s.now + 1)
      else
        let (cls, sec) := lineAttrs s r.rgn space x (hCls h)
        match allocWay s mask space x cls sec 3 with
        | (s1, .got set w) =>
          considerPrefetch (setPhase (startFill (countHit s1 false h) r.rgn set w false (0x40 + slot) (s1.now + 2)) slot (.waitFill set w)) space x cls
        | (s1, .wait n) => waitFor s1 slot n

/-- A request to a line whose writeback is on its way waits for it: a clean to be answered (11 R310), a write of a class without ways to be
written behind it (11 R301, R306). -/
def awaitWb (s : State) (slot : Nat) (space : Bool) (x : Nat) : Option State :=
  match wbFind s space x with
  | some (b, e) => some (setPhase { s with cch := { s.cch with wb := smPut s.cch.wb b { e with waiters := e.waiters ++ [slot] } } } slot .home)
  | none => none

/-- Serve `WR`, `WR_LINE` and `MT_ZERO_PA` at the home copy (11 R301, R306, R311). -/
def serveWrite (s : State) (slot : Nat) (r : Req) (fromFill : Bool) : State :=
  let h := r.head
  let (space, x) := reqLine h
  let set := cacheSet x
  let mask := wayMask s h
  let zero := hOpcode h == 0x26
  let whole := zero || hSize h == 7
  let hit := fun (s : State) (w : Nat) (l : Line) =>
    let s1 := installWay s set w (applyWrite l h r.payload) 2 (getWay s set w).pf
    homeComp (if zero then s1 else touch s1 set w mask) slot ok (max (s1.now + 3) (r.arrived + 13))
  match findWay s space x with
  | some w =>
    if (getWay s set w).st = 3 then
      let s1 := if zero then (if fromFill then s else s.bump (rk 0x04 0x084)) else if fromFill then s else countHit s false h
      setPhase s1 slot (.waitFill set w)
    else
      let s1 := if zero then s else usePrefetch (if fromFill then s else countHit s true h) set w
      let (s2, l) := readWay s1 set w
      hit s2 w l
  | none =>
    let buf := (wbFind s space x).map fun b => b.2.line
    if mask = 0 then
      match awaitWb s slot space x with
      | some s1 => s1
      | none => writeBacking (if zero then s else countHit s false h) slot r x space
    else if !whole && buf.isNone && space && (hostAgent s).isNone then
      homeComp (noHost s (hOpcode h) (hSrcId h) (hSrcType h)) slot nackBusy (s.now + 1)
    else
      let (cls, sec) := lineAttrs s r.rgn space x (hCls h)
      match allocWay s mask space x cls sec (if whole || buf.isSome then 2 else 3) with
      | (s1, .wait n) => waitFor s1 slot n
      | (s1, .got set w) =>
        let s2 := if zero then s1 else countHit s1 false h
        if whole then hit s2 w Line.zero
        else if buf.isSome then considerPrefetch (hit s2 w (buf.getD Line.zero)) space x cls
        else
          considerPrefetch (setPhase (startFill s2 r.rgn set w false (0x40 + slot) (s2.now + 2)) slot (.waitFill set w)) space x cls

/-- Clean and invalidate a way as an operation asks: 0 clean, 1 invalidate, 2 both (11 R310, R312). -/
def maintWay (s : State) (slot : Nat) (r : Req) (set way act : Nat) : State :=
  let c := getWay s set way
  let done := fun (s : State) => homeComp s slot ok (max (s.now + 3) (r.arrived + 13))
  -- a set/way operation leaves the MRU bit unchanged (R312)
  let gone := fun (s : State) => if isSetWay (hOpcode r.head) then putWay s set way { getWay s set way with st := 0 } else clearWay s set way
  if c.st = 2 ∧ act ≠ 1 then
    match wayToWb s set way [slot] with
    | none => waitFor s slot 1
    | some s1 =>
      setPhase (if act = 0 then putWay s1 set way { getWay s1 set way with st := 1 } else gone s1) slot .home
  else
    let s1 := if act = 0 then s else gone s
    match awaitWb s1 slot c.space c.x with
    | some s2 => s2
    | none => done s1

/-- Serve `MT_CLEAN_PA`, `MT_INV_PA` and `MT_CLINV_PA` at the home copy (11 R310, R313, R314). -/
def serveMaint (s : State) (slot : Nat) (r : Req) (fromFill : Bool) : State :=
  let (space, x) := reqLine r.head
  let set := cacheSet x
  match findWay s space x with
  | some w =>
    if (getWay s set w).st = 3 then setPhase (if fromFill then s else s.bump (rk 0x04 0x084)) slot (.waitFill set w)
    else maintWay s slot r set w (hOpcode r.head - 0x20)
  | none =>
    match awaitWb s slot space x with
    | some s1 => s1
    | none => homeComp s slot ok (max (s.now + 3) (r.arrived + 13))

/-- Serve a set/way operation (11 R312, R314). -/
def serveSw (s : State) (slot : Nat) (r : Req) (fromFill : Bool) : State :=
  let set := fld r.head 168 160
  let way := fld r.head 179 176
  let s0 := tagCheck s set
  let c := getWay s0 set way
  if failed s0 then s0
  else if c.st = 3 then setPhase (if fromFill then s0 else s0.bump (rk 0x04 0x084)) slot (.waitFill set way)
  else if c.st = 0 then homeComp s0 slot ok (max (s.now + 3) (r.arrived + 13))
  else
    let op := hOpcode r.head - 0x23
    maintWay s0 slot r set way (if op = 1 && !hS r.head && c.sec then 2 else op)

/-! ### Atomics enter their engine -/

/-- bucket() of R282: XOR of the 6-bit fields. -/
def bucketOf (x : Nat) : Nat := (List.range 8).foldl (fun a i => a ^^^ (x / 64 ^ i) % 64) 0

/-- Owner of a bucket (10 R282). -/
def bucketOwner (s : State) (b : Nat) : Nat := s.rf (rk 0x06 (0x06C + 4 * (b / 8))) (4 * (b % 8) + 3) (4 * (b % 8))

/-- Queue of a position. -/
def engQueue (s : State) (p : Nat) : List Nat := smGetD s.upd.queues p []
/-- Replace it. -/
def setEngQueue (s : State) (p : Nat) (q : List Nat) : State :=
  { s with upd := { s.upd with queues := if q.isEmpty then smDel s.upd.queues p else smPut s.upd.queues p q } }

/-- Atomics at the home that wait for a place in the queue of a position, in the order in which they came to wait. -/
def engWaiters (s : State) (p : Nat) : List Nat :=
  let since := fun (r : Req) => match r.phase with | .waitEng n => some n | _ => none
  let ws := s.fab.reqs.filter fun e => (since e.2).isSome && bucketOwner s (bucketOf (reqLine e.2.head).2) == p
  (sortBy (fun a b => decide ((since a.2).getD 0 < (since b.2).getD 0) || (since a.2 == since b.2 && decide (a.2.arrived ≤ b.2.arrived))) ws).map (·.1)

/-- Pass an atomic to the queue of its bucket's owner behind those that wait for it; while it is full it waits (10 R281, R283). One whose line
was fetched again for it has kept its place there. -/
def enqueueAtomic (s : State) (slot : Nat) (r : Req) : State :=
  let p := bucketOwner s (bucketOf (reqLine r.head).2)
  let next := match (engWaiters s p).head? with | some k => k == slot | none => true
  if s.upd.queues.any fun q => q.2.contains slot then setPhase s slot .engine
  else if (engQueue s p).length < 8 && next then setPhase (setEngQueue s p (engQueue s p ++ [slot])) slot .engine
  else
    let ph := match r.phase with | .waitEng n => Phase.waitEng n | _ => .waitEng s.now
    setReq s slot { r with phase := ph }

/-- An atomic to a cached line needs the line in the cache (10 R276). -/
def serveAtomic (s : State) (slot : Nat) (r : Req) (fromFill : Bool) : State :=
  let h := r.head
  let (space, x) := reqLine h
  let set := cacheSet x
  let mask := wayMask s h
  match findWay s space x with
  | some w =>
    if (getWay s set w).st = 3 then setPhase (if fromFill then s else countHit s false h) slot (.waitFill set w)
    else
      enqueueAtomic (touch (usePrefetch (if fromFill then s else countHit s true h) set w) set w mask) slot r
  | none =>
    let buf := (wbFind s space x).map fun b => b.2.line
    if mask = 0 ∧ buf.isNone then
      -- no way may be taken for the class: the manual gives no other path, so the atomic waits for a way (R303)
      waitFor s slot 0
    else if buf.isNone && space && (hostAgent s).isNone then
      homeComp (noHost s (hOpcode h) (hSrcId h) (hSrcType h)) slot nackBusy (s.now + 1)
    else
      let (cls, sec) := lineAttrs s r.rgn space x (hCls h)
      match allocWay s mask space x cls sec (if buf.isSome then 2 else 3) with
      | (s1, .wait n) => waitFor s1 slot n
      | (s1, .got set w) =>
        match buf with
        | some l => enqueueAtomic (touch (installWay (countHit s1 false h) set w l 2 false) set w mask) slot r
        | none => setPhase (startFill (countHit s1 false h) r.rgn set w false (0x40 + slot) (s1.now + 2)) slot (.waitFill set w)

/-- Act on the home copy for a request whose snoops are done (12 R332). -/
def homeServe (s : State) (slot : Nat) (fromFill : Bool) : State :=
  match getReq s slot with
  | none => s
  | some r =>
    let op := hOpcode r.head
    let (_, x) := reqLine r.head
    if isSetWay op then serveSw s slot r fromFill
    else
      let s0 := tagCheck s (cacheSet x)
      if failed s0 then s0
      else
        if 1 ≤ op ∧ op ≤ 4 then serveRead s0 slot r fromFill
        else if op = 5 ∨ op = 6 ∨ op = 0x26 then serveWrite s0 slot r fromFill
        else if isAtomic op then serveAtomic s0 slot r fromFill
        else serveMaint s0 slot r fromFill

/-! ### Running a transaction -/

/-- The region that a transaction goes by: its request's, and for an eviction or sweep the active one (03 R105). -/
def txnRegion (s : State) (k : Nat) (t : Txn) : Option Region :=
  match getReq s k with
  | some r => r.rgn
  | none => if t.space then none else regionAt s (t.x / 32)

/-- The home copy is to be marked (12 R340): it is marked where it is held, else filled from its backing store first, under R304; a class
without ways, and cached space without a host agent, leave only the loss to write back. Answers the line to merge, or what it waits for: 2 is
the fill. -/
def markHome (s : State) (k : Nat) (t : Txn) : State × Except Nat Line :=
  let set := cacheSet t.x
  match poisonedCopy s t.space t.x with
  | some (s1, l) => (s1, .ok l)
  | none =>
    if (findWay s t.space t.x).isSome then (s, .error 2)
    else if coreMask s = 0 || (t.space && (hostAgent s).isNone) then let (s1, l) := lostLine s; (s1, .ok l)
    else
      let rg := txnRegion s k t
      let (cls, sec) := lineAttrs s rg t.space t.x t.cls
      match allocWay s (coreMask s) t.space t.x cls sec 3 with
      | (s1, .got _ w) => (startFill s1 rg set w false (if k < 64 then 0x40 + k else wireTxn k) (s1.now + 2), .error 2)
      | (s1, .wait n) => (s1, .error n)

/-- Recalled data enters the home copy, or waits; a copy that is to be marked is marked first. -/
def tryMerge (s : State) (k : Nat) (t : Txn) : State × Txn × Option Nat :=
  let (s0, m) : State × Except Nat (Option Line) := match t.merge, t.mark with
    | some l, _ => (s, .ok (some l))
    | none, false => (s, .ok none)
    | none, true => let (s1, x) := markHome s k t; (s1, x.map some)
  match m with
  | .error n => (s0, t, some n)
  | .ok none => (s0, t, none)
  | .ok (some l) =>
    match mergeHome s0 (txnRegion s0 k t) t.space t.x t.cls (coreMask s0) false l with
    | (s1, none) => let t1 := { t with merge := none, mark := false }; (putTxn s1 k t1, t1, none)
    | (s1, some n) => let t1 := { t with merge := some l, mark := false }; (putTxn s1 k t1, t1, some n)

/-- Stage 3: merge what was recalled, then act on the home copy; an eviction or sweep just ends. -/
def goHome (s : State) (k : Nat) : State :=
  match getTxn s k with
  | none => s
  | some t0 =>
    let s0 := tagCheck (putTxn s k { t0 with stage := 3 }) (cacheSet t0.x)
    if failed s0 then s0
    else
      let (s1, t, w) := tryMerge s0 k { t0 with stage := 3 }
      match w with
      | some n => if k < 64 && n != 2 then waitFor s1 k n else s1
      | none =>
        if 64 ≤ k then closeIfDone (putTxn s1 k { t with stage := 4 }) k
        else
          match t.data with
          | some l => homeData s1 k l
          | none => homeServe s1 k false

/-- Stage 1 is over: the entry takes its next state; a chosen core gets its forward, or the home acts (12 R332, R333). -/
def afterSnoops (s : State) (k : Nat) (t : Txn) : State :=
  let op := match getReq s k with | some r => hOpcode r.head | none => 0
  match dirFind s t.space t.x with
  | none => goHome s k
  | some (dk, e0) =>
    let e := if t.bcast then { e0 with bcast := false, ptrs := [], fidx := 0, st := 1 } else e0
    if 64 ≤ k then goHome (freeDir s dk) k
    else if op = 2 then
      goHome (if e.st = 3 then putDir s dk { e with st := 2 } else s) k
    else if op = 3 then
      let s1 := putDir s dk e
      match t.fwd with
      | some (c, f) =>
        if e0.ptrs.contains c then
          let (s2, t2) := sendAll s1 k { t with stage := 2, fwd := none } [(c, f)]
          putTxn s2 k t2
        else goHome (putTxn s1 k { t with fwd := none }) k
      | none => goHome s1 k
    else if op = 0x20 then
      goHome (if e.st = 3 then putDir s dk { e with st := if e.cls = 0 then 2 else 1, fidx := 0 }
        else if e.st = 4 then putDir s dk { e with st := 1, fidx := 0 } else s) k
    else if 1 ≤ op ∧ op ≤ 4 then goHome s k
    else goHome (freeDir s dk) k

/-- Move a transaction on when its snoops are all answered, and close it when it is done. -/
def moveTxn (s : State) (k : Nat) : State :=
  match getTxn s k with
  | none => s
  | some t =>
    if t.stage = 1 && t.settled then afterSnoops s k t
    else if t.stage = 2 && t.settled then goHome s k
    else if t.stage = 4 && (t.merge.isSome || t.mark) then
      let s0 := tagCheck s (cacheSet t.x)
      if failed s0 then s0
      else
        let (s1, _, _) := tryMerge s0 k t
        closeIfDone s1 k
    else closeIfDone s k

/-- Snoops that make every copy leave for a write or an eviction (12 R332, the `WR` row; `MT_INV_PA` discards). `MT_ZERO_PA` follows that row
too, where R310 names SNP_INV alone (DESIGN CHOICE, notes/assumptions/59.md). A broadcast leaves out the requester, unless the requester
itself is the holder or owner (R337). -/
def leaveMsgs (s : State) (e : DirEnt) (discard : Bool) (req : Option Nat) : List (Nat × Nat) :=
  let holds := fun c => decide (3 ≤ e.st) && c == e.holder
  let msg := fun c => (c, if holds c && !discard then 0x45 else 0x43)
  if e.bcast then ((allCores s).filter fun c => some c != req || holds c).map msg else e.ptrs.map msg

/-- A broadcast invalidation counts once (12 R337). -/
def countBcast (s : State) (b : Bool) : State := if b then s.bump (rk 0x05 0x060) else s

/-- A new transaction on a line. -/
def newTxn (space : Bool) (x cls : Nat) : Txn :=
  { space := space, x := x, stage := 1, awaits := [], fwd := none, ack := none, poison := false, data := none, bcast := false, merge := none
    acked := false, cls := cls, mark := false, place := none }

/-- Start the eviction of an entry under key k (12 R338). -/
def evictDir (s : State) (k : Nat) (e : DirEnt) : State :=
  let t := newTxn e.space e.x e.cls
  let (s1, t1) := sendAll (countBcast (s.bump (rk 0x05 0x068)) e.bcast) k { t with bcast := e.bcast } (leaveMsgs s e false none)
  moveTxn (putTxn s1 k t1) k

/-- Allocate an entry for a line in state I (12 R338): true when one is reserved, else an eviction has started or every way is busy. The place
that an eviction frees is kept for the transaction that asked for it. -/
def allocDir (s : State) (slot : Nat) (space : Bool) (x cls : Nat) : State × Bool :=
  let set := cacheSet x
  let fresh : DirEnt := { space := space, x := x, st := 1, cls := cls, bcast := false, fidx := 0, ptrs := [] }
  let ways := (dirWays s).filter fun w => !s.dir.sweep.testBit w
  let kept := fun p => s.dir.txns.any fun e => e.1 != slot && e.2.place == some p
  let mine := fun (s : State) (p : Option Nat) => match getTxn s slot with | some t => putTxn s slot { t with place := p } | none => s
  match ((getTxn s slot).bind (·.place)).filter fun p => ways.contains (p % 16) with
  | some p => if (smGet s.dir.ents p).isNone then (putDir (mine s none) p fresh, true) else (s, false)
  | none =>
    match ways.find? fun w => (smGet s.dir.ents (set * 16 + w)).isNone && !kept (set * 16 + w) with
    | some w => (putDir s (set * 16 + w) fresh, true)
    | none =>
      if (getTxn s (64 + slot)).isSome then (s, false)
      else
        let rr := smGetD s.dir.rr set 0
        let n := ways.length
        let order := (List.range n).map fun i => nth ways ((rr + i) % (max n 1)) 0
        let free := order.findSome? fun w => (smGet s.dir.ents (set * 16 + w)).bind fun e =>
          if lineBusy s e.space e.x || kept (set * 16 + w) then none else some (w, e)
        match free with
        | none => (s, false)
        | some (w, e) =>
          let pos := ((ways.findIdx? (· == w)).getD 0 + 1) % (max n 1)
          let s1 := { s with dir := { s.dir with rr := smSet s.dir.rr set pos 0 } }
          let s2 := evictDir (mine s1 (some (set * 16 + w))) (64 + slot) e
          if (smGet s2.dir.ents (set * 16 + w)).isNone && (getTxn s2 (64 + slot)).isNone then (putDir (mine s2 none) (set * 16 + w) fresh, true)
          else (s2, false)

/-- Class a new entry takes (12 R324). -/
def dirCls (s : State) (r : Req) : Nat :=
  let (space, x) := reqLine r.head
  if space then (match findWay s true x with | some w => (getWay s (cacheSet x) w).cls | none => hCls r.head)
  else (lineAttrs s r.rgn false x (hCls r.head)).1

/-- A transaction that found every way of its set BUSY waits at the head of the blocked queue; one that comes from the queue keeps its
count, and one whose set has an eviction under way waits for that (12 R338). `r` is its entry as it came. -/
def waitDirWay (s : State) (slot : Nat) (r : Req) : State :=
  if ((getTxn s slot).bind (·.place)).isSome then
    let s1 := { s with dir := { s.dir with blocked := s.dir.blocked.filter (· != slot) } }
    if r.phase = .home then s1 else setPhase s1 slot .home
  else if s.dir.blocked.contains slot then s
  else
    let (s1, n) := match r.phase with
      | .blocked n => (s, n)
      | _ => (pmuReq (s.bump (rk 0x05 0x06C)) 0x4B r.head, s.now)
    setPhase (sramWrite { s1 with dir := { s1.dir with blocked := slot :: s1.dir.blocked } } 18 3 slot) slot (.blocked n)

/-- Start a request's transaction on its line (12 R332). -/
def startTxn (s0 : State) (slot : Nat) : State :=
  match getReq s0 slot with
  | none => s0
  | some r =>
    let h := r.head
    let op := hOpcode h
    let (space, x) := reqLine h
    let s1 := tagCheck (dirCheck (setPhase s0 slot .home) (cacheSet x)) (cacheSet x)
    if failed s1 then s1
    else
      let s := countCls s1 space x h
      let req := hSrcId h
      let t := newTxn space x (match dirFind s space x with | some (_, e) => e.cls | none => dirCls s r)
      let go := fun (s : State) (t : Txn) (msgs : List (Nat × Nat)) =>
        let (s1, t1) := sendAll s slot t msgs
        moveTxn (putTxn s1 slot t1) slot
      match dirFind s space x with
      | none =>
        if isCohRead h then
          match allocDir (putTxn s slot { t with stage := 0 }) slot space x (dirCls s r) with
          | (s1, true) => goHome s1 slot
          | (s1, false) => waitDirWay s1 slot r
        else go s t []
      | some (dk, e) =>
        let others := e.ptrs.filter fun c => c != req
        if isCohRead h && op == 2 then
          if e.isI then go s t []
          else if e.st = 3 ∧ e.cls = 0 then go s t [(e.holder, 0x44)]
          else
            let src := if e.st = 3 then some e.holder else pick s space x e req
            match src with
            | some c =>
              let named := e.cls == 0 && e.st == 2
              let s1 := if named then putDir s dk { e with fidx := (e.ptrs.findIdx? (· == c)).getD e.fidx } else s
              go s1 { t with stage := 2 } [(c, 0x40)]
            | none => go s t []
        else if isCohRead h then
          let src := if 3 ≤ e.st then (if e.holder = req then none else some e.holder) else pick s space x e req
          let inv := if e.bcast then (allCores s).filter fun c => c != req else others
          let s1 := match src with
            | some c => if e.cls == 0 && e.st == 2 then putDir s dk { e with fidx := (e.ptrs.findIdx? (· == c)).getD e.fidx } else s
            | none => s
          let snoops := (if 3 ≤ e.st ∧ e.holder = req then [(req, 0x44)] else []) ++
            ((inv.filter fun c => some c != src).map fun c => (c, 0x43))
          go (countBcast s1 e.bcast) { t with fwd := src.map fun c => (c, 0x41), bcast := e.bcast } snoops
        else if 1 ≤ op ∧ op ≤ 4 then
          if 3 ≤ e.st && !e.isI then go s { t with stage := 2 } [(e.holder, 0x42)] else go s t []
        else if op = 0x20 then
          if 3 ≤ e.st && !e.isI then go s t [(e.holder, 0x44)] else go s t []
        else go (countBcast s e.bcast) { t with bcast := e.bcast } (leaveMsgs s e (op == 0x21) (if hSrcType h = 0 ∧ hSrcChip h = s.straps.chip then some req else none))

/-- What a request that reaches the home meets (12 R330, R331; 11 R313): 0 its line is free, 1 maintenance that is held at a fill, 2 an atomic
behind atomics that have yet to reach their engine, 3 it enters the blocked queue. -/
def homeOrder (s : State) (h : BitVec 256) : Nat :=
  let (space, x) := reqLine h
  let first := !blockedFor s space x && !parkedFor s space x
  if first && (!lineBusy s space x || (isEngAtomic h && busyByAtomics s space x)) then 0
  else if isMaintPa (hOpcode h) && (match findWay s space x with | some w => (getWay s (cacheSet x) w).st == 3 | none => false) then 1
  else if isEngAtomic h && !blockedFor s space x && onlyAtomics s space x then 2
  else 3

/-- Put a request into the blocked queue, ahead of later ones for its line (12 R330, R331). -/
def blockReq (s : State) (slot : Nat) (r : Req) : State :=
  let later := fun b => match getReq s b with | some q => reqLine q.head == reqLine r.head && decide (r.arrived < q.arrived) | none => false
  let q := s.dir.blocked.takeWhile (fun b => !later b) ++ slot :: s.dir.blocked.dropWhile fun b => !later b
  let s1 := sramWrite { s with dir := { s.dir with blocked := q } } 18 3 slot
  setPhase (pmuReq (s1.bump (rk 0x05 0x06C)) 0x4B r.head) slot (.blocked s1.now)

/-- A request reaches the home (12 R330, R331); the caller has kept room in the blocked queue. -/
def homeArrive (s : State) (slot : Nat) : State :=
  match getReq s slot with
  | none => s
  | some r =>
    match homeOrder s r.head with
    | 0 => startTxn s slot
    | 1 =>
      let (space, x) := reqLine r.head
      setPhase (s.bump (rk 0x04 0x084)) slot (.waitFill (cacheSet x) ((findWay s space x).getD 0))
    | 2 => setPhase s slot .behind
    | _ => blockReq s slot r

/-- The fill at which maintenance was held has ended: it is applied when what came before it has been served, else it waits in its order (11
R313, R314). -/
def releaseHeld (s : State) (slot : Nat) : State :=
  match getReq s slot with
  | none => s
  | some r =>
    let (space, x) := reqLine r.head
    let open_ := s.dir.txns.any fun t => t.2.space == space && t.2.x == x && !t.2.over
    let ahead := s.dir.blocked.any fun b => match getReq s b with
      | some q => reqLine q.head == (space, x) && decide (q.arrived ≤ r.arrived)
      | none => false
    if open_ || ahead then blockReq s slot r else startTxn s slot

/-- Atomics that wait behind others of their line start once these have reached their engine, in home order (12 R330). -/
def passBehind (s0 : State) : State :=
  ((sortBy (fun a b => decide (a.2.arrived ≤ b.2.arrived)) (s0.fab.reqs.filter fun e => e.2.phase == .behind)).map (·.1)).foldl
    (fun s k => match getReq s k with
      | some r =>
        let (space, x) := reqLine r.head
        let ahead := s.fab.reqs.any fun e => e.2.phase == .behind && reqLine e.2.head == (space, x) && decide (e.2.arrived < r.arrived)
        if !ahead && busyByAtomics s space x then startTxn s k else s
      | none => s) s0

/-! ### Answers of cores -/

/-- Free a core's pointer in the line's entry. -/
def dropCore (s : State) (space : Bool) (x core : Nat) : State :=
  match dirFind s space x with
  | some (k, e) => putDir s k (e.drop core)
  | none => s

/-- Transaction and outstanding message that an answer with this TXN, core and line address matches (02 R64). -/
def findAwait (s : State) (txn core addr : Nat) : Option (Nat × Txn × Nat × Await) :=
  s.dir.txns.findSome? fun e =>
    if wireTxn e.1 = txn ∧ (e.1 < 128 ∨ lineAddr s e.2.space e.2.x = addr) then
      (e.2.awaits.zipIdx.find? fun w => w.1.core == core && !w.1.answered).map fun w => (e.1, e.2, w.2, w.1)
    else none

/-- A forward was served by the core: the entry takes its next state, the requester is recorded (12 R332), and
`RSP_ACK` is timed from here (notes/assumptions/57.md). -/
def forwardServed (s : State) (k : Nat) (t : Txn) : State :=
  match getReq s k, dirFind s t.space t.x with
  | some r, some (dk, e) =>
    let core := hSrcId r.head
    let e1 := if hOpcode r.head = 3 then { e with st := 3, fidx := 0, ptrs := [core], bcast := false }
      else (if e.st = 3 then { e with st := 4 } else e).record core
    closeIfDone (putTxn (putDir s dk e1) k { t with stage := 4, ack := some s.now }) k
  | _, _ => closeIfDone (putTxn s k { t with stage := 4 }) k

/-- A core answers an outstanding forward or snoop (12 R327, R332, R336): `op` is the answer's opcode, `data` that of a `DAT_SNP`. -/
def coreAnswer (s0 : State) (k : Nat) (t : Txn) (i : Nat) (w : Await) (op : Nat) (data : Option Line) : State :=
  let s := if k < 64 then progressed s0 k else s0
  let miss := op == 0x54
  let w1 := { w with answered := true, miss := w.miss || miss }
  let t1 := { t with awaits := t.awaits.set i w1 }
  let isFwd := decide (w.op ≤ 0x42)
  let discard := (match getReq s k with | some r => hOpcode r.head == 0x21 | none => false) && w.op == 0x43
  if w.wb then moveTxn (putTxn s k t1) k
  else if miss then putTxn s k t1
  else
    let t2 := match data with
      | some l => if w.op = 0x42 then { t1 with data := some l } else if discard then t1 else { t1 with merge := some l }
      | none => t1
    if isFwd then
      if w.op = 0x42 then goHome (putTxn s k t2) k
      else if op = 0x53 ∨ op = 0x57 then moveTxn (forwardServed (putTxn s k t2) k t2) k
      else moveTxn (putTxn s k t2) k
    else
      -- a snooped copy is gone, or has become an S copy under SNP_CLEAN
      let s1 := if w.op = 0x44 then s else dropCore s t.space t.x w.core
      moveTxn (putTxn s1 k t2) k

/-- The line a writeback names is no longer COHERENT: the active table does not have it so, and a commit ended its COHERENT mode, or the
directory still has an entry for it (03 R107). -/
def staleCoherent (s : State) (h : BitVec 256) : Bool :=
  let g := hOffset h / 4096
  hSpace h == 0 && (match regionAt s g with | some r => r.mode != 1 | none => true) &&
    (s.rgn.wasCoh.any (fun c => decide (c.1 ≤ g) && decide (g ≤ c.2)) || (dirFind s false (reqLine h).2).isSome)

/-- A writeback has removed a core to which an open transaction has queued a message that has not left: none is sent (12 R335). -/
def withdrawMsg (s : State) (space : Bool) (x core : Nat) : State :=
  match s.dir.txns.findSome? fun e =>
      if e.2.space == space && e.2.x == x then
        (e.2.awaits.zipIdx.find? fun w => w.1.core == core && !w.1.left && !w.1.answered).map fun w => (e.1, e.2, w.1, w.2)
      else none with
  | some (k, t, w, i) =>
    let out := match s.fab.out.findIdx? (isMsg s k t w) with | some j => s.fab.out.eraseIdx j | none => s.fab.out
    moveTxn (putTxn { s with fab := { s.fab with out := out } } k { t with awaits := t.awaits.eraseIdx i }) k
  | none => s

/-- Apply a `WB_DIRTY` or `WB_CLEAN` to the directory and the home copy (12 R335, R336), or let it wait for a place. -/
def serveWb (s0 : State) (slot : Nat) : State :=
  match getReq s0 slot with
  | none => s0
  | some r =>
    let h := r.head
    let (space, x) := reqLine h
    let core := hSrcId h
    let sa := tagCheck (dirCheck s0 (cacheSet x)) (cacheSet x)
    let again := match r.phase with | .waitWay _ => true | .waitWb _ => true | _ => false
    let s := if again || failed sa then sa else countCls sa space x h
    let dirty := hOpcode h == 7
    let l := payloadLine r.payload
    let at_ := max (s.now + 1) (r.arrived + 10)
    let fin := fun (s : State) (code : Nat) => finish s slot code 0 at_
    let info := mkFld 6 0 (hOpcode h) + mkFld 16 7 core
    if failed s then s
    else
      let crossing := s.dir.txns.findSome? fun e =>
        if e.2.space == space && e.2.x == x then
          (e.2.awaits.zipIdx.find? fun w => w.1.core == core && w.1.left && !w.1.wb && (!w.1.answered || w.1.miss)).map fun w => (e.1, e.2, w.2, w.1)
        else none
      match crossing with
      | some (k, t, i, w) =>
        let discard := (match getReq s k with | some q => hOpcode q.head == 0x21 | none => false) && w.op == 0x43
        let (s1, wait) := if dirty && !discard then mergeHome s r.rgn space x t.cls (wayMask s h) true l else (s, none)
        match wait with
        | some n => waitFor s1 slot n
        | none =>
          let s2 := dropCore (pmuEv (s1.bump (rk 0x05 0x064)) 0x4A 1) space x core
          let t1 := { t with awaits := t.awaits.set i { w with wb := true } }
          let t2 := if w.op = 0x42 && dirty then { t1 with data := some l } else t1
          let s3 := fin (putTxn s2 k t2) ok
          if w.op ≤ 0x42 ∧ t.stage = 2 then goHome s3 k else moveTxn s3 k
      | none =>
        let quit := fun (s : State) => withdrawMsg (fin s ok) space x core
        match dirFind s space x with
        | none => quit (if dirty then logErr s 0x05 3 info else s)
        | some (_, e) =>
          if !e.ptrs.contains core then quit (if dirty then logErr s 0x05 3 info else s)
          else if e.holder = core ∧ 3 ≤ e.st then
            if !dirty && e.st == 4 then fin (logErr s 0x05 4 info) nackRsvd
            else
              let (s1, wait) := if dirty then mergeHome s r.rgn space x e.cls (wayMask s h) true l else (s, none)
              match wait with
              | some n => waitFor s1 slot n
              | none =>
                let s2 := dropCore s1 space x core
                quit (if lineBusy s2 space x then s2 else cleanDir s2 space x)
          else
            let s1 := dropCore s space x core
            let s2 := if dirty then logErr s1 0x05 3 info else s1
            quit (if lineBusy s2 space x then s2 else cleanDir s2 space x)

/-- STALE_COHERENT (03 R107): the entry is cleared, the data discarded. -/
def refuseStale (s : State) (h : BitVec 256) : State :=
  let s1 := logErr s 0x02 7 (mkFld 6 0 (hOpcode h) + mkFld 23 10 (fld h 122 109))
  match dirFind s1 false (reqLine h).2 with
  | some (k, _) => freeDir s1 k
  | none => s1

/-! ### Fills and writebacks complete -/

/-- Entries that wait for a way's fill, in order of arrival. -/
def fillWaiters (s : State) (set way : Nat) : List Nat :=
  (sortBy (fun a b => decide (a.2.arrived ≤ b.2.arrived)) (s.fab.reqs.filter fun e => e.2.phase == .waitFill set way)).map (·.1)

/-- Transactions that wait for this line to mark its home copy go on (12 R340). -/
def resumeMarks (s : State) (space : Bool) (x : Nat) : State :=
  ((s.dir.txns.filter fun e => e.2.mark && e.2.space == space && e.2.x == x).map (·.1)).foldl (fun s k =>
    match getTxn s k with
    | some t => if t.stage = 3 then goHome s k else moveTxn s k
    | none => s) s

/-- Serve a request that waited for a fill: maintenance held without a transaction is applied or takes its place in the queue. -/
def serveWaiter (s : State) (k : Nat) : State :=
  match getReq s k, getTxn s k with
  | some r, none => if isMaintPa (hOpcode r.head) then releaseHeld s k else homeServe s k true
  | _, _ => homeServe s k true

/-- The data of a fill arrives (11 R304, R308): the way is installed and the requests that waited are served in order. -/
def fillArrived (s : State) (set way : Nat) (l : Line) : State :=
  match fillOf s set way with
  | none => s
  | some f =>
    let s1 := dropFill s set way
    let w := getWay s1 set way
    let ws := fillWaiters s1 set way
    if w.st = 3 then ws.foldl serveWaiter (resumeMarks (installWay s1 set way l 1 f.pf) w.space w.x) else ws.foldl serveWaiter s1

/-- A fill fails (11 R305, R314): the way returns to INVALID; waiting requests get `code`, held maintenance finds the line absent. A copy that
was to be marked is lost to the fill: only the loss is written back (12 R340; notes/assumptions/5.md). -/
def fillFailed (s : State) (set way code : Nat) : State :=
  match fillOf s set way with
  | none => s
  | some f =>
    let s1 := dropFill s set way
    let ws := fillWaiters s1 set way
    let w := getWay s1 set way
    let s2 := if w.st = 3 then clearWay s1 set way else s1
    let s3 := if f.pf then pfDrop s2 else s2
    let s4 := (s3.dir.txns.filter fun e => e.2.mark && e.2.space == w.space && e.2.x == w.x).foldl (fun s e =>
      let (s1, l) := lostLine s
      putTxn s1 e.1 { e.2 with mark := true, merge := some l }) s3
    ws.foldl (fun s k =>
      match getReq s k with
      | some r => if isMaintPa (hOpcode r.head) || isSetWay (hOpcode r.head) then serveWaiter s k else homeComp s k code (s.now + 1)
      | none => s) (resumeMarks s4 w.space w.x)

/-- A buffer line has reached its backing store (11 R306, R310): operations that waited for it are answered, a write that waited is served. -/
def wbDone (s : State) (b : Nat) : State :=
  match smGet s.cch.wb b with
  | none => s
  | some e =>
    let s0 := { s with cch := { s.cch with wb := smDel s.cch.wb b } }
    let s1 := if b < 8 then pmuEv (s0.bump (rk 0x04 0x07C)) 0x45 1 else s0
    e.waiters.foldl (fun s k => match getReq s k with
      | some r => if hOpcode r.head = 0x26 ∨ hOpcode r.head < 0x20 then homeServe s k false else homeComp s k ok (s.now + 1)
      | none => s) s1

/-- A writeback to the host agent fails (11 R306). -/
def wbFailed (s : State) (b at_ : Nat) : State :=
  match smGet s.cch.wb b with
  | none => s
  | some e =>
    let s1 := { s with cch := { s.cch with wb := smPut s.cch.wb b { e with failedAt := some at_, stalled := true } } }
    if e.stalled then s1 else logErr s1 0x04 3 (mkFld 8 0 e.set + mkFld 12 9 e.way)

/-- A direct access of the host agent completes (11 R301, R309). -/
def hostDone (s : State) (slot code : Nat) (data : Option Line) : State :=
  match s.cch.host.find? (·.slot == slot) with
  | none => s
  | some o =>
    let s1 := { s with cch := { s.cch with host := s.cch.host.filter fun q => q.slot != slot } }
    if o.reads then
      match data with
      | some l => homeData s1 slot l
      | none => homeComp s1 slot (if code ≤ 1 then nackRsvd else code) (s.now + 1)
    else homeComp s1 slot (if code ≤ 1 then ok else code) (s.now + 1)

/-! ### Timeouts, queues and sweeps -/

/-- One timer of R340 expires: the core is taken as answered without data and H is poisoned. -/
def awaitExpired (s : State) (k : Nat) (t : Txn) (i : Nat) (w : Await) : State :=
  let kind := if w.miss then 2 else if w.op ≤ 0x42 then 0 else 1
  let s1 := logErr (s.bump (rk 0x05 0x070)) 0x05 1 (mkFld 9 0 w.core + mkFld 11 10 kind + mkFld 20 12 (cacheSet t.x))
  let s2 := dropCore s1 t.space t.x w.core
  let (s3, m) := match t.merge with
    | some l => let (a, b) := markLine s2 l; (a, some b)
    | none => (s2, none)
  let t1 := { t with awaits := t.awaits.set i { w with answered := true, miss := false }, poison := true, merge := m, mark := true }
  let s4 := if k < 64 then progressed s3 k else s3
  moveTxn (putTxn s4 k t1) k

/-- Expire what is due in a transaction (12 R340). -/
def txnTimeouts (s : State) (k : Nat) : State :=
  let n := match getTxn s k with | some t => t.awaits.length | none => 0
  let s1 := (List.range n).foldl (fun s i =>
    match getTxn s k with
    | some t =>
      match t.awaits[i]? with
      | some w => if w.left && (!w.answered || (w.miss && !w.wb)) && decide (w.since + fwdLimit s w.since ≤ s.now) then awaitExpired s k t i w else s
      | none => s
    | none => s) s
  match getTxn s1 k with
  | some t =>
    match t.ack with
    | some a =>
      if !t.acked && !answerWaits s1 k && decide (a + fwdLimit s1 a ≤ s1.now) then
        let core := match getReq s1 k with | some r => hSrcId r.head | none => 0
        let s2 := logErr (s1.bump (rk 0x05 0x070)) 0x05 1 (mkFld 9 0 core + mkFld 11 10 3 + mkFld 20 12 (cacheSet t.x))
        moveTxn (putTxn s2 k { t with acked := true }) k
      else s1
    | none => s1
  | none => s1

/-- A blocked request starts when its line is free and it is the oldest that waits for it (12 R331, R338). -/
def startBlocked (s : State) (slot : Nat) : State :=
  match getReq s slot, getTxn s slot with
  | some r, some t =>
    -- its transaction is open and waits for a directory way
    if t.stage = 0 then
      match allocDir s slot t.space t.x (dirCls s r) with
      | (s1, true) => goHome (ctrlRead { s1 with dir := { s1.dir with blocked := s1.dir.blocked.filter (· != slot) } } 3 slot) slot
      | (s1, false) => waitDirWay s1 slot r
    else s
  | some r, none =>
    let (space, x) := reqLine r.head
    let first := s.dir.blocked.find? fun b => match getReq s b with | some q => reqLine q.head == (space, x) | none => false
    let free := (!lineBusy s space x || (isEngAtomic r.head && busyByAtomics s space x)) && !parkedFor s space x
    if first = some slot ∧ free then
      startTxn (ctrlRead { s with dir := { s.dir with blocked := s.dir.blocked.filter (· != slot) } } 3 slot) slot
    else s
  | none, _ => s

/-- Retry a wait for a way, a buffer line or an engine queue (11 R303; 10 R283); an eviction whose recalled data waits goes first (12 R338). -/
def retryWait (s : State) (slot : Nat) : State :=
  match getReq s slot with
  | none => s
  | some r =>
    let again := fun (s : State) =>
      if hOpcode r.head = 7 ∨ hOpcode r.head = 8 then serveWb s slot
      else
        match getTxn s slot with
        | some t => if t.stage = 3 then goHome s slot else moveTxn s slot
        | none => homeServe s slot false
    match r.phase with
    | .waitWay _ => again s
    | .waitWb _ => again s
    | .waitEng _ => enqueueAtomic s slot r
    | _ =>
      match getTxn s slot with
      | some t =>
        if t.merge.isSome || t.mark then moveTxn s slot
        else if t.stage = 0 then
          startBlocked (match getTxn s (64 + slot) with | some e => if e.stage = 3 then goHome s (64 + slot) else s | none => s) slot
        else s
      | none => s

/-- Sweep on: what an eviction recalled finds its place, and once no eviction is open the next valid entry of the ways being swept whose line
is not busy is evicted, one set at a time (12 R344). -/
def sweepStep (s0 : State) : State :=
  let s := ((s0.dir.txns.filter fun e => decide (128 ≤ e.1) && e.2.stage == 3).map (·.1)).foldl goHome s0
  if s.dir.txns.any fun e => decide (128 ≤ e.1) then s
  else
    match s.dir.ents.find? fun e => s.dir.sweep.testBit (e.1 % 16) && !lineBusy s e.2.space e.2.x with
    | some e => evictDir s (128 + e.1 / 16) e.2
    | none => s

/-- An answer has left: a coherent read awaits `RSP_ACK` from now on, any other transaction closes (12 R330, R340). -/
def answerLeft (s : State) (o : OutPkt) : State :=
  match s.fab.reqs.find? fun e => answersTuple e.2.head o with
  | some (k, _) =>
    match getTxn s k with
    | some t => closeIfDone (if t.ack.isSome then putTxn s k { t with ack := some s.now } else s) k
    | none => s
  | none => s

end Sys2Proof.Machine
end

