-- ==== Sys2Proof/Machine/Atomics.lean ====
section
/-!
DEFINITION. Unscheduled atomics on the update engines and bucket stealing (10_update_engines.md R269-R285).
-/

namespace Sys2Proof.Machine

/-- The stored value of a word atomic: opcode, width in bytes, SIGNED, old value and operands (R278, R279). -/
def atomValue (op w : Nat) (signed : Bool) (old a b : Nat) : Nat :=
  let m := 256 ^ w
  let less := fun (x y : Nat) => if signed then decide (toSigned (8 * w) x < toSigned (8 * w) y) else decide (x < y)
  match op with
  | 0x10 => a
  | 0x11 => if old = a then b else old
  | 0x12 => (old + a) % m
  | 0x13 => fpF32.addRn old a
  | 0x14 => fpBf16.addRn (old % 65536) (a % 65536) + fpBf16.addRn (old / 65536) (a / 65536) * 65536
  | 0x15 => if less a old then a else old
  | 0x16 => if less old a then a else old
  | 0x17 => minMaxF false old a
  | 0x18 => minMaxF true old a
  | 0x19 => old &&& a
  | 0x1A => old ||| a
  | 0x1B => old ^^^ a
  | 0x1C => if b ≤ old then old else min (old + a) b
  | _ => old

/-- n bytes of line bits from byte i as a number. -/
def lineNum (d : LineBits) (i n : Nat) : Nat := (d.toNat >>> (8 * i)) % 256 ^ n

/-- Sixteen FP32 sums (R279, `AT_VADD_F32`). -/
def vaddF32 (old add : Nat) : Nat :=
  (List.range 16).foldl (fun a i => a + fpF32.addRn (old / 2 ^ (32 * i) % 2 ^ 32) (add / 2 ^ (32 * i) % 2 ^ 32) * 2 ^ (32 * i)) 0

/-- Result of an atomic: the new line, the old value returned, and whether it met poison (R278-R280). -/
structure AtomRes where
  /-- The line to write. -/
  line : Line
  /-- Old value, at bytes [w - 1:0]. -/
  old : Nat
  /-- Answered `OK_POISON`. -/
  poison : Bool
deriving DecidableEq, Repr

/-- Perform the atomic of a request on a line; a twice mismatched operation leaves the bytes and spores the granule (R271, R280). -/
def atomResult (h : BitVec 256) (p : List CData) (l : Line) (mismatch : Bool) : AtomRes :=
  let op := hOpcode h
  let ofs := hAddr h % 128
  let w := 2 ^ hSize h
  let pl := match p[0]? with | some f => f.data.toNat | none => 0
  let pl1 := match p[1]? with | some f => f.data.toNat | none => 0
  let old := lineNum l.data ofs w
  let new := if op = 0x1D then vaddF32 old (pl + pl1 * 2 ^ 256)
    else atomValue op w (bit h 160) old (pl % 256 ^ w) (pl / 256 ^ 16 % 256 ^ w)
  let poison := sporeOf l ofs || p.any (·.spore) || mismatch
  let l1 := if mismatch then l else mergeLine l (BitVec.ofNat 1024 (new * 256 ^ ofs)) ofs w false
  let g := ofs / 64
  { line := { data := l1.data, sp0 := if g = 0 then poison else l.sp0, sp1 := if g = 1 then poison else l.sp1 }
    old := old, poison := poison }

/-- Answer a completed atomic (R279, R280). -/
def answerAtomic (s : State) (slot : Nat) (a : AtomRes) : State :=
  match getReq s slot with
  | none => s
  | some r =>
    let h := r.head
    let s1 := pmuReq (s.bump (rk 0x06 0x0A4)) 0x3B h
    let lost := match getTxn s1 slot with | some t => t.poison | none => false
    let p := a.poison || lost
    let s2 := if p then s1.bump (rk 0x06 0x0A8) else s1
    if hOpcode h = 0x1D then homeComp s2 slot (if p then okPoison else ok) (s2.now + 2)
    else
      responded (answerData s2 h (if p then okPoison else ok) [⟨BitVec.ofNat 256 a.old, p⟩] (max (s2.now + 2) (r.arrived + 30))) slot

/-- A second mismatch of an atomic is logged and counted (R271). -/
def atomicUe (s : State) (phys : Nat) (h : BitVec 256) : State :=
  countUe (logErr s 0x06 1 (mkFld 6 0 (hOpcode h) + mkFld 16 7 (hSrcId h) + mkFld 18 17 (hSrcType h))) (20 + phys)

/-- Both executions of an operation with their residue checks (R271): true when both mismatched. -/
def atomCheck (s : State) (phys pos : Nat) (h : BitVec 256) : State × Bool :=
  match engCheck s phys pos 2 with
  | (s1, false) => (s1, false)
  | (s1, true) =>
    match engCheck s1 phys pos 2 with
    | (s2, false) => (s2, false)
    | (s2, true) => (atomicUe s2 phys h, true)

/-- Atomics in flight at a position. -/
def posFlights (s : State) (p : Nat) : List AtomFlight := s.upd.flights.filter fun f => f.pos == p

/-- Write the result of an atomic on a held line and answer it; `bad` when both executions mismatched. -/
def writeAtomic (s : State) (slot : Nat) (r : Req) (set w : Nat) (l : Line) (bad : Bool) : State :=
  let a := atomResult r.head r.payload l bad
  let made := if bad && !(sporeOf l (hAddr r.head % 128)) then 1 else 0
  answerAtomic (installWay (madeSpores s made) set w a.line 2 (getWay s set w).pf) slot a

/-- Start the atomic in `slot` on the engine of position p (R276, R283): a cached line is read, changed and left dirty, and a mismatch puts the
second execution off to the engine's next free sclk (R271); an UNCACHED line goes to the arbiter as one read-merge-write. After a change of
the map the new engine waits for what the old one has in flight (R274). An atomic whose line has left the cache keeps its place while the
line is fetched again. -/
def startAtomic (s : State) (p slot : Nat) : State :=
  match getReq s slot with
  | none => setEngQueue s p ((engQueue s p).filter (· != slot))
  | some r =>
    let (space, x) := reqLine r.head
    let phys := physOf s p
    let uncached := !space && (match r.rgn with | some g => g.mode == 2 | none => true) && (getTxn s slot).isNone
    let out := setEngQueue s p ((engQueue s p).filter (· != slot))
    let inFlight := fun (s : State) (miss : Nat) =>
      progressed { s with upd := { s.upd with flights := s.upd.flights ++ [⟨p, phys, slot, x, miss⟩] } } slot
    if (posFlights s p).any fun f => f.phys != phys then s
    else if uncached then queueBurst (inFlight out 0) 3 (.atomic slot) x r.rgn true true
    else
      match findWay s space x with
      | some w =>
        let set := cacheSet x
        if (getWay s set w).st = 3 then s
        else
          let s0 := tagCheck out set
          if failed s0 then s0
          else
            let (s1, l) := readWay s0 set w
            match engCheck s1 phys p 2 with
            | (s2, false) => writeAtomic s2 slot r set w l false
            | (s2, true) => inFlight s2 1
      | none => serveAtomic s slot r false

/-- The second execution of an atomic on a held line, on the engine that has it in flight (R271, R274). -/
def againAtomic (s : State) (p : Nat) (f : AtomFlight) : State :=
  let out : State := { s with upd := { s.upd with flights := s.upd.flights.erase f } }
  match getReq s f.slot with
  | none => out
  | some r =>
    let (space, x) := reqLine r.head
    match findWay s space x with
    | some w =>
      let set := cacheSet x
      if (getWay s set w).st = 3 then s
      else
        let s0 := tagCheck out set
        if failed s0 then s0
        else
          let (s1, l) := readWay s0 set w
          match engCheck s1 f.phys p 2 with
          | (s2, false) => writeAtomic s2 f.slot r set w l false
          | (s2, true) => writeAtomic (atomicUe s2 f.phys r.head) f.slot r set w l true
    | none => serveAtomic (setEngQueue out p (f.slot :: engQueue out p)) f.slot r false

/-- The read of an UNCACHED atomic has been merged and written (R276): the line to write from the line read. -/
def atomicMerge (s : State) (slot : Nat) (l : Line) : State × Line × AtomRes :=
  match getReq s slot, s.upd.flights.find? (·.slot == slot) with
  | some r, some f =>
    let (s1, bad) := atomCheck s f.phys f.pos r.head
    let a := atomResult r.head r.payload l bad
    (madeSpores s1 (b2n (bad && !(sporeOf l (hAddr r.head % 128)))), a.line, a)
  | _, _ => (s, l, ⟨l, 0, false⟩)

/-- An UNCACHED atomic has been written: it leaves its engine and is answered. One that an old engine completes lets the new one start from
the sclk after (R274). -/
def atomicDone (s : State) (slot : Nat) (a : AtomRes) : State :=
  let old := s.upd.flights.filter fun f => f.slot == slot && f.phys != physOf s f.pos
  answerAtomic { s with upd := { s.upd with
    flights := s.upd.flights.filter fun f => f.slot != slot
    started := old.foldl (fun m f => smPut m f.pos s.now) s.upd.started } } slot a

/-- One steal for the thief p, if R284 makes one: at most one in an sclk. -/
def steal (s : State) (p : Nat) : State :=
  let nb := nBanks s.straps.build
  let idle := fun q => (engQueue s q).isEmpty && (posFlights s q).isEmpty
  let thief := (List.range nb).find? idle
  let most := (List.range nb).foldl (fun m q => max m (engQueue s q).length) 0
  let victim := (List.range nb).find? fun q => (engQueue s q).length == most
  if !s.rb (rk 0x06 0x040) 0 || s.upd.stolen == some s.now || thief != some p || decide (most < s.rf (rk 0x06 0x040) 5 2) then s
  else
    match victim with
    | none => s
    | some v =>
      let bk := fun slot => match getReq s slot with | some r => bucketOf (reqLine r.head).2 | none => 64
      let busy := (posFlights s v).map fun f => bucketOf f.line
      match ((engQueue s v).map bk).find? fun b => !busy.contains b with
      | none => s
      | some b =>
        let mine := (engQueue s v).filter fun k => bk k == b
        let s1 := setEngQueue (setEngQueue s v ((engQueue s v).filter fun k => bk k != b)) p mine
        let s2 := mine.foldl progressed { s1 with upd := { s1.upd with stolen := some s1.now } }
        pmuEv ((s2.rgFld (rk 0x06 (0x06C + 4 * (b / 8))) (4 * (b % 8) + 3) (4 * (b % 8)) p).bump (rk 0x06 0x0A0)) 0x3C 1

/-- The burst kind serves an atomic. -/
def ofAtomic : BKind → Bool | .atomic _ => true | _ => false

/-- The engines lose their queued and in-flight atomics without response, with the accesses these wait for or have under way (R277). -/
def loseAtomics (s : State) : State :=
  let gone := (s.upd.queues.flatMap (·.2)) ++ (s.upd.flights.map (·.slot)) ++
    (s.fab.reqs.filterMap fun e => match e.2.phase with | .waitEng _ => some e.1 | _ => none)
  let s1 : State := { s with
    upd := { s.upd with queues := [], flights := [] }
    arb := { s.arb with queue := s.arb.queue.filter fun b => !ofAtomic b.kind }
    thl := { s.thl with flights := s.thl.flights.filter fun f => !ofAtomic f.kind } }
  gone.foldl (fun s k => match getTxn s k with
    | some t => closeIfDone (putTxn s k { t with stage := 4, awaits := [], merge := none, mark := false, ack := none }) k
    | none => freeReq s k) s1

end Sys2Proof.Machine
end

