-- ==== Sys2Proof/Machine/Accum.lean ====
section
/-!
DEFINITION. Accumulator lanes: the lane image, the exact add, special values, close values and the close formats
(08_accumulation.md R224-R243).
-/

namespace Sys2Proof.Machine

/-- A lane unpacked (R224). -/
structure Lane where
  /-- VALUE. -/
  v : Int
  /-- SHIFT. -/
  sh : Nat
  /-- INEXACT. -/
  inexact : Bool
  /-- POISON. -/
  poison : Bool
  /-- STICKY. -/
  sticky : Bool
  /-- SPECIAL: 0 none, 1 +Inf, 2 -Inf, 3 NaN. -/
  sp : Nat
  /-- CNT. -/
  cnt : Nat
deriving DecidableEq, Repr

/-- Unpack a lane image; reserved bits are ignored (R224, R245). -/
def laneOf (b : LaneBits) : Lane :=
  { v := toSigned 96 (fld b 95 0), sh := fld b 99 96, inexact := bit b 100, poison := bit b 101, sticky := bit b 102
    sp := fld b 104 103, cnt := fld b 123 108 }

/-- Pack a lane (R224). -/
def laneBits (x : Lane) : LaneBits :=
  BitVec.ofNat 128 ((x.v % (2 : Int) ^ 96).toNat + mkFld 99 96 x.sh + mkFld 100 100 (b2n x.inexact) + mkFld 101 101 (b2n x.poison)
    + mkFld 102 102 (b2n x.sticky) + mkFld 104 103 x.sp + mkFld 123 108 x.cnt)

/-- A contribution (R229): m * 2^q for an element; VALUE, SHIFT and flags of the image for a wide partial. -/
structure Addend where
  /-- m, or VALUE of a wide partial. -/
  m : Int
  /-- q of an element. -/
  q : Int
  /-- A wide partial. -/
  wide : Bool
  /-- SHIFT of a wide partial. -/
  sh : Nat
  /-- Special class. -/
  sp : Nat
  /-- Count. -/
  cnt : Nat
  /-- POISON. -/
  poison : Bool
  /-- STICKY of a wide partial. -/
  sticky : Bool
  /-- INEXACT of a wide partial. -/
  inexact : Bool
deriving DecidableEq, Repr

/-- special_sum() of R231. -/
def specialSum (a b : Nat) : Nat := if a = 0 then b else if b = 0 then a else if a = b then a else 3

/-- What an add reports: SATURATED of the lane, CNT at its limit, window steps (R234). -/
structure AddEv where
  /-- The lane saturated. -/
  sat : Bool
  /-- CNT reached its limit and would have risen further. -/
  full : Bool
  /-- 8-bit window steps. -/
  steps : Nat
deriving DecidableEq, Repr

/-- Bits below 2^d of an integer are nonzero. -/
def lowBits (v : Int) (d : Nat) : Bool := decide (v % (2 : Int) ^ d ≠ 0)

/-- floor(v / 2^d). -/
def floorShift (v : Int) (d : Nat) : Int := v / (2 : Int) ^ d

/-- The guard loop of R230: shift the window while T does not fit in 96 bits; none when a sixteenth shift would be needed. -/
def guardLoop : Nat → Int → Nat → Bool → Nat → Option (Int × Nat × Bool × Nat)
  | 0, _, _, _, _ => none
  | fuel + 1, t, sh, st, n =>
    if -(2 : Int) ^ 95 ≤ t ∧ t ≤ (2 : Int) ^ 95 - 1 then some (t, sh, st, n)
    else if sh = 15 then none
    else guardLoop fuel (floorShift t 8) (sh + 1) (st || lowBits t 8) (n + 1)

/-- T after every shift the lane may still make, for the sign and steps of a saturation. -/
def guardSteps (sh : Nat) : Nat := 15 - sh

/-- lane_add() of R230. -/
def laneAdd (x : Lane) (a : Addend) (wlsb : Int) : Lane × AddEv :=
  let full := decide (65535 < x.cnt + a.cnt)
  let x1 : Lane := { x with
    poison := x.poison || a.poison, sticky := x.sticky || a.sticky, inexact := x.inexact || a.inexact
    sp := specialSum x.sp a.sp, cnt := if full then 65535 else x.cnt + a.cnt }
  let up := a.wide && decide (x1.sh < a.sh)
  let d := 8 * (a.sh - x1.sh)
  let x2 : Lane := if up then { x1 with v := floorShift x1.v d, sh := a.sh, inexact := true, sticky := x1.sticky || lowBits x1.v d } else x1
  let n0 := if up then a.sh - x1.sh else 0
  let l := wlsb + 8 * x2.sh
  let q := if a.wide then wlsb + 8 * a.sh else a.q
  let low := if l ≤ q then false else lowBits a.m (l - q).toNat
  let am := if l ≤ q then a.m * (2 : Int) ^ (q - l).toNat else floorShift a.m (l - q).toNat
  let x3 : Lane := { x2 with sticky := x2.sticky || low }
  let t := x3.v + am
  match guardLoop 17 t x3.sh x3.sticky 0 with
  | some (t', sh, st, n) =>
    ({ x3 with v := t', sh := sh, sticky := st, inexact := x3.inexact || decide (0 < n) }, ⟨false, full, n0 + n⟩)
  | none =>
    -- the shifts made before the sixteenth is needed leave their bits in STICKY, and the sign decides the bound
    let k := guardSteps x3.sh
    ({ x3 with
        v := if 0 < t then (2 : Int) ^ 95 - 1 else -(2 : Int) ^ 95
        sh := 15, sticky := x3.sticky || lowBits t (8 * k), inexact := true
        sp := specialSum x3.sp (if 0 < t then 1 else 2) }, ⟨true, full, n0 + k⟩)

/-- Addend of an element of an encoding, or of its square (R229). -/
def elemAddend (f : Fp) (raw : Nat) (spore square : Bool) : Addend :=
  let base : Addend := ⟨0, 0, false, 0, 0, 1, spore, false, false⟩
  if spore then base
  else
    match f.decode raw with
    | .nan => { base with sp := 3 }
    | .inf s => { base with sp := if square then 1 else if s then 2 else 1 }
    | .fin s n _ e =>
      if square then { base with m := (n * n : Nat), q := 2 * e }
      else { base with m := if s then -(n : Int) else n, q := e }

/-- Addend of a wide partial; one in a spored granule counts as the zero image with POISON (R229). -/
def wideAddend (img : LaneBits) (spore : Bool) : Addend :=
  if spore then ⟨0, 0, true, 0, 0, 0, true, false, false⟩
  else let x := laneOf img; ⟨x.v, 0, true, x.sh, x.sp, x.cnt, x.poison, x.sticky, x.inexact⟩

/-- Close value of a lane (R225), or its special value. -/
def closeVal (x : Lane) (wlsb : Int) : Val :=
  if x.sp = 1 then .inf false
  else if x.sp = 2 then .inf true
  else if x.sp = 3 then .nan
  else .ofInt (2 * x.v + b2n x.sticky) (wlsb + 8 * x.sh - 1)

/-- Exact finite close value, SPECIAL ignored. -/
def closeFin (x : Lane) (wlsb : Int) : Val := .ofInt (2 * x.v + b2n x.sticky) (wlsb + 8 * x.sh - 1)

/-- convert() for a close to OUT_FMT 0x01-0x05 (R238). -/
def closeConvert (fmt : Nat) (satFp8 satWide : Bool) (v : Val) : Nat :=
  ((plainFp fmt).convert (if fmt = 4 then satFp8 else satWide) v).raw

/-- Largest of the magnitudes of finite values. -/
def amaxOf (vs : List Val) : Val := vs.foldl (fun a v => if a.lt v.abs then v.abs else a) Val.zero

/-- emax of an element format of R239. -/
def mxEmax : Nat → Int | 0x06 => 8 | 0x07 => 15 | 0x08 => 2 | 0x09 => 4 | 0x0A => 2 | _ => 0
/-- Element encoding of an MX format. -/
def mxFp : Nat → Fp | 0x06 => fpE4m3 | 0x07 => fpE5m2 | 0x08 => fpE2m3 | 0x09 => fpE3m2 | _ => fpE2m1
/-- Bits of an MX element. -/
def mxBits : Nat → Nat | 0x06 => 8 | 0x07 => 8 | 0x0B => 8 | 0x08 => 6 | 0x09 => 6 | _ => 4

/-- Clamp an integer. -/
def clampI (lo hi x : Int) : Int := max lo (min hi x)

/-- round_nearest_even of a value to an integer. -/
def roundInt : Val → Int
  | .fin s n d e => let q : Int := roundAt n d e 0; if s then -q else q
  | _ => 0

/-- Bytes of a little-endian number. -/
def leBytes (n x : Nat) : List Nat := (List.range n).map fun i => (x / 256 ^ i) % 256

/-- One block of 32 lanes in an MX format (R239). -/
def mxBlock (fmt : Nat) (special : Bool) (vs : List Val) : List Nat :=
  let w := mxBits fmt
  let body := 4 * w
  if special then 255 :: List.replicate body 0
  else
    let x : Int := match amaxOf vs with
      | .fin _ n d e => if n = 0 then 0 else clampI 0 254 (expOf n d e - mxEmax fmt + 127)
      | _ => 0
    let sc : Val := .fin false 1 1 (127 - x)
    let el := fun (v : Val) =>
      if fmt = 0x0B then (clampI (-128) 127 (roundInt ((v.mul sc).mul (.fin false 1 1 6))) % 256).toNat
      else
        -- element formats never produce Inf or NaN: a value above the largest finite one gives that value
        (mxFp fmt).roundSat (v.mul sc)
    x.toNat :: leBytes body ((vs.zipIdx.map fun p => el p.1 * 2 ^ (w * p.2)).foldl (· + ·) 0)

/-- One INT4 group of 32 lanes (R240). -/
def int4Block (special : Bool) (vs : List Val) : List Nat :=
  if special then leBytes 2 0x7E00 ++ List.replicate 16 0
  else
    let am := amaxOf vs
    if am.isZero then leBytes 2 0 ++ List.replicate 16 0
    else
      let raw := max 1 (fpF16.roundSat (am.div (.ofInt 7 0)))
      let sc := fpF16.decode raw
      let el := fun (v : Val) => (clampI (-8) 7 (roundInt (v.div sc)) % 16).toNat
      leBytes 2 raw ++ leBytes 16 ((vs.zipIdx.map fun p => el p.1 * 16 ^ p.2).foldl (· + ·) 0)

/-- Mean and variance of an element pair (R241). -/
def statPair (a b : Lane) (wlsb : Int) : Val × Val :=
  if a.cnt = 0 then (.nan, .nan)
  else
    let n := Val.ofInt a.cnt 0
    if a.sp ≠ 0 then (closeVal a wlsb, .nan)
    else
      let m := (closeFin a wlsb).div n
      if b.sp ≠ 0 then (m, .nan)
      else
        let v := ((closeFin b wlsb).div n).sub (m.mul m)
        (m, if v.sign then Val.zero else v)

/-- The values of the lanes of a run, pairs reduced for ACTION 2 (R237, R241). -/
def closeVals (action statsOut : Nat) (wlsb : Int) (xs : List Lane) : List Val :=
  if action = 2 ∧ statsOut = 1 then
    (List.range (xs.length / 2)).flatMap fun i =>
      match xs[2 * i]?, xs[2 * i + 1]? with
      | some a, some b => let (m, v) := statPair a b wlsb; [m, v]
      | _, _ => []
  else xs.map fun x => closeVal x wlsb

/-- Output bytes of a run of lanes (R238-R242); `n0` is a multiple of 32 for block formats. -/
def closeBytesOf (fmt : Nat) (satFp8 satWide : Bool) (vs : List Val) : List Nat :=
  if isPlain fmt then vs.flatMap fun v => leBytes (plainWidth fmt) (closeConvert fmt satFp8 satWide v)
  else
    (List.range (vs.length / 32)).flatMap fun b =>
      let blk := (vs.drop (32 * b)).take 32
      let special := blk.any fun v => v.isNan || v.isInf
      if fmt = 0x0D then int4Block special blk else mxBlock fmt special blk

end Sys2Proof.Machine
end

