-- ==== Sys2Proof/Machine/Groups.lean ====
section
/-!
DEFINITION. Lanes as the engines read and write them, group states, and unscheduled vector adds (08_accumulation.md R226-R234, R246-R250;
10_update_engines.md R271; 13_errors_poison_scrub.md R347, R352).
-/

namespace Sys2Proof.Machine

/-- Key of ACC.GRP_STATn. -/
def kGrp (g : Nat) : Nat := rk 0x07 (0x100 + 4 * g)

/-- Accumulator bank, and engine position, of a lane (05 R157). -/
def laneBank (s : State) (lane : Nat) : Nat := lane % nBanks s.straps.build

/-- Set a bit of a group's status. -/
def grpFlag (s : State) (g b : Nat) : State :=
  if g < nGroups s.straps.build then s.rgFld (kGrp g) b b 1 else s

/-- Group record. -/
def getGroup (s : State) (g : Nat) : Option GroupSt := smGet s.acc.groups g
/-- Replace it. -/
def setGroup (s : State) (g : Nat) (x : GroupSt) : State := { s with acc := { s.acc with groups := smPut s.acc.groups g x } }

/-- Image of a lane as stored. -/
def laneImage (s : State) (lane : Nat) : LaneBits := smGetD s.acc.lanes lane 0

/-- Store a lane's image, two words of its SRAM. -/
def lanePut (s : State) (lane : Nat) (b : LaneBits) : State :=
  sramWriteN { s with acc := { s.acc with lanes := smSet s.acc.lanes lane b 0 } } 15 0 (2 * lane) 2

/-- INFO of the lane errors. -/
def infoLane (g lane : Nat) : Nat := mkFld 5 0 g + mkFld 19 6 lane

/-- A lane's POISON has risen (R234). -/
def lanePoisoned (s : State) (g lane : Nat) : State :=
  grpFlag (logErr (s.bump (rk 0x07 0x060)) 0x07 1 (infoLane g lane)) g 6

/-- Read a lane of group g; an uncorrectable word replaces it with the poisoned zero image (R249). -/
def laneRead (s : State) (g lane : Nat) : State × LaneBits :=
  let (s1, u0) := sramRead s 15 0 (2 * lane)
  let (s2, u1) := sramRead s1 15 0 (2 * lane + 1)
  if u0 = some true ∨ u1 = some true then
    let was := (laneOf (laneImage s2 lane)).poison
    let img := laneBits { laneOf 0 with poison := true }
    let s3 := lanePut (grpFlag (logErr s2 0x07 2 (mkFld 13 0 lane)) g 6) lane img
    ((if was then s3 else madeSpores (lanePoisoned s3 g lane) 1), img)
  else (s2, laneImage s2 lane)

/-- Flags, errors and counts of an add that turned `old` into `x` (R234, R252). -/
def noteAdd (s : State) (g lane : Nat) (old x : Lane) (ev : AddEv) : State :=
  let s1 := pmuEv s 0x38 1
  let s2 := if ev.steps = 0 then s1 else pmuEv (s1.bumpBy (rk 0x07 0x058) ev.steps) 0x39 ev.steps
  let s3 := if !old.inexact && x.inexact then grpFlag s2 g 4 else s2
  let s4 := if ev.sat then logErr (s3.bump (rk 0x07 0x05C)) 0x07 0 (infoLane g lane) else s3
  let s5 := if ev.sat || ev.full then grpFlag s4 g 5 else s4
  let s6 := if !old.poison && x.poison then lanePoisoned s5 g lane else s5
  if old.sp = 0 ∧ x.sp ≠ 0 then grpFlag (s6.bump (rk 0x07 0x064)) g 7 else s6

/-- Add an addend to a lane holding `img` and store it (R230, R271). -/
def addInto (s : State) (g lane : Nat) (wlsb : Int) (img : LaneBits) (a : Addend) : State :=
  let old := laneOf img
  let (x, ev) := laneAdd old a wlsb
  let p := laneBank s lane
  let (s1, bad) := engCheck s (physOf s p) p 0
  let x1 := if bad then { x with poison := true } else x
  let s2 := if bad && !x.poison then madeSpores s1 1 else s1
  noteAdd (lanePut s2 lane (laneBits x1)) g lane old x1 ev

/-- Add an addend to a lane (R230, R233). -/
def addLane (s : State) (g lane : Nat) (wlsb : Int) (a : Addend) : State :=
  let (s1, img) := laneRead s g lane
  addInto s1 g lane wlsb img a

/-- Read a lane for a close or a forward: a residue mismatch marks what this read delivers, and a clean read ends the mark of an earlier one
(R271). -/
def laneOut (s : State) (g lane : Nat) : State :=
  let (s1, _) := laneRead s g lane
  let p := laneBank s lane
  match engCheck s1 (physOf s1 p) p 1 with
  | (s2, true) => { s2 with acc := { s2.acc with readBad := s2.acc.readBad ++ [lane] } }
  | (s2, false) => { s2 with acc := { s2.acc with readBad := s2.acc.readBad.filter (· != lane) } }

/-! ### AT_VACC -/

/-- GROUP of an `AT_VACC` (02_fabric_interface.md R60). -/
def vaccGroup (h : BitVec 256) : Nat := hParam h % 64
/-- LANE. -/
def vaccLane (h : BitVec 256) : Nat := (hParam h / 256) % 2 ^ 14
/-- FMT. -/
def vaccFmt (h : BitVec 256) : Nat := (hParam h / 2 ^ 22) % 4
/-- Elements of the vector. -/
def vaccElems (h : BitVec 256) : Nat := 64 / inWidth (vaccFmt h)

/-- Answer an `AT_VACC` that is not granted (R247). -/
def vaccRefuse (s : State) (slot : Nat) : State :=
  let at_ := match getReq s slot with | some r => max s.now (r.arrived + 8) | none => s.now
  finish { (s.bump (rk 0x07 0x06C)) with acc := { s.acc with vacc := s.acc.vacc.filter (· != slot) } } slot nackFrame 0 at_

/-- The group leaves OPEN: vectors not granted are answered `NACK_FRAME` (R247). -/
def vaccLeave (s : State) (g : Nat) : State :=
  (s.acc.vacc.filter fun k => match getReq s k with | some r => vaccGroup r.head == g | none => true).foldl vaccRefuse s

/-- The adds of a vector, in element order: lane, raw bits, whether of the square, and the poison of the payload (R246, R229). -/
def vaccAddsOf (h : BitVec 256) (p : List CData) (stats : Bool) : List (Nat × Nat × Bool × Bool) :=
  let w := inWidth (vaccFmt h)
  let pl := p.zipIdx.foldl (fun a f => a + f.1.data.toNat * 2 ^ (256 * f.2)) 0
  let bad := p.any (·.spore)
  let raw := fun j => pl / 256 ^ (w * j) % 256 ^ w
  if stats then (List.range (2 * vaccElems h)).map fun j => (vaccLane h + j, raw (j / 2), j % 2 == 1, bad)
  else (List.range (vaccElems h)).map fun j => (vaccLane h + j, raw j, false, bad)

/-- One add of a granted vector; its last one completes the request (R247). -/
def applyVaccAdd (s : State) (a : VaccAdd) : State :=
  let wl := match getGroup s a.group with | some g => g.wlsb | none => 0
  let s1 := addLane s a.group a.lane wl (elemAddend (inFp a.fmt) a.raw a.poison a.square)
  if s1.acc.adds.any fun x => x.slot == a.slot then s1
  else
    let s2 := grpFlag (s1.bump (rk 0x07 0x068)) a.group 8
    let s3 := match getReq s2 a.slot with | some r => pmuReq s2 0x3A r.head | none => s2
    finish s3 a.slot ok 0 (a.sclk + 1)

/-- Make the adds of granted vectors whose slots have come, in slot order (R247). -/
def applyAdds (s : State) (upTo : Nat) : State :=
  let due := sortBy (fun a b => decide (a.sclk ≤ b.sclk)) (s.acc.adds.filter fun a => decide (a.sclk ≤ upTo))
  due.foldl (fun s a => applyVaccAdd { s with acc := { s.acc with
    adds := s.acc.adds.filter fun x => x != a
    lastAdd := smPut s.acc.lastAdd (laneBank s a.lane) a.sclk } } a) s

/-! ### Group states -/

/-- A group closes: CLOSE_FRAME is recorded (R226). -/
def groupClosed (s : State) (g : Nat) : State :=
  let s1 := vaccLeave s g
  { (s1.rgFld (kGrp g) 31 16 s1.frm.frameNo) with acc := { s1.acc with groups := smDel s1.acc.groups g } }

/-- A group leaves OPEN for CLOSING (R226). -/
def groupClosing (s : State) (g : Nat) : State :=
  match getGroup s g with
  | some x => if x.st = 3 then s else setGroup (vaccLeave s g) g { x with st := 3 }
  | none => s

/-- Every open group is abandoned at frame sclk 0 of a frame that runs (05 R178). -/
def abandonGroups (s : State) : State :=
  match s.acc.groups with
  | [] => s
  | (g0, _) :: _ =>
    let s1 := s.acc.groups.foldl (fun s g => grpFlag (vaccLeave s g.1) g.1 9) s
    logErr { s1 with acc := { s1.acc with groups := [] } } 0x01 6 (mkFld 5 0 g0)

/-- Every group closes and every lane returns to the zero image, in an initialization that starts now (R226, R250). Vectors already granted
are answered as they stand. -/
def accReset (s : State) : State :=
  let s1 := applyAdds s (s.now + 2 ^ 40)
  let s2 := s1.acc.groups.foldl (fun s g => vaccLeave s g.1) s1
  let s3 := (List.range (nGroups s.straps.build)).foldl (fun s g => s.rgSet (kGrp g) 0) s2
  { s3 with
    acc := { s3.acc with lanes := [], groups := [], ready := false, initAt := some s.now, adds := [], readBad := [], dbgHold := none }
    ras := { s3.ras with upsets := s3.ras.upsets.filter fun x => x.1 != 15 } }

/-- GRP_STATn as read: its state and STATS come from the live group (R252). -/
def grpStat (s : State) (g : Nat) : Word :=
  match getGroup s g with
  | some x => setFld (setFld (s.rg (kGrp g)) 1 0 x.st) 2 2 (b2n x.stats)
  | none => s.rg (kGrp g)

end Sys2Proof.Machine
end

