-- ==== Sys2Proof/Machine/Program.lean ====
section
/-!
DEFINITION. Frame programs: header, entries, and the slot claims every frond makes (05_frames_and_fronds.md R146-R158; 06_streams.md
R192, R193; 08_accumulation.md R228, R236, R242; 09_summation_order_trees.md R255, R256, R260; 10_update_engines.md R286, R287).
-/

namespace Sys2Proof.Machine

/-- One 32-byte entry of frame memory. -/
abbrev Ent := BitVec 256

/-- Entry i of a half: eight words, word 0 lowest (R146, R167). -/
def entryOf (mem : List (Nat × Word)) (half i : Nat) : Ent :=
  (List.range 8).foldl (fun a w => a ||| ((smGetD mem (half * 8192 + i * 8 + w) 0).setWidth 256 <<< (32 * w))) 0

/-- COUNT of a header (R147). -/
def hdrCount (h : Ent) : Nat := fld h 33 24
/-- PLAN_AWAKE of a header. -/
def hdrPlan (h : Ent) : Nat := fld h 73 64
/-- SEQ of a header. -/
def hdrSeq (h : Ent) : Nat := fld h 15 0
/-- PROG_ID of a header. -/
def hdrProgId (h : Ent) : Nat := fld h 127 96

/-- KIND (R148). -/
def eKind (e : Ent) : Nat := fld e 3 0
/-- SUB. -/
def eSub (e : Ent) : Nat := fld e 7 4
/-- START. -/
def eStart (e : Ent) : Nat := fld e 24 8
/-- TAG. -/
def eTag (e : Ent) : Nat := fld e 47 32
/-- DST_TILE. -/
def eDst (e : Ent) : Nat := fld e 55 48
/-- RGN of EGRESS and INGRESS_STORE, GROUP of the group kinds. -/
def eRgn (e : Ent) : Nat := fld e 69 64
/-- LINE of EGRESS and INGRESS_STORE. -/
def eLine (e : Ent) : Nat := fld e 91 72
/-- LINES of EGRESS; LANES of OPEN_GROUP. -/
def eLines (e : Ent) : Nat := fld e 111 96
/-- BEATS. -/
def eBeats (e : Ent) : Nat := fld e 127 112
/-- RPACE of EGRESS. -/
def eRpace (e : Ent) : Nat := fld e 139 128
/-- LEAD of EGRESS. -/
def eLead (e : Ent) : Nat := fld e 151 144
/-- OUT_FMT of EGRESS. -/
def eOut (e : Ent) : Nat := fld e 155 152
/-- SHAPE. -/
def eShape (e : Ent) : Nat := fld e 159 156
/-- First lane of the group kinds. -/
def eLane (e : Ent) : Nat := fld e 85 72
/-- PACE: five bits for INGRESS_STORE and FORWARD, six for INGRESS_ACC. -/
def ePace (e : Ent) : Nat := if eKind e = 3 then fld e 133 128 else fld e 132 128
/-- IN_FMT of INGRESS_ACC. -/
def eIn (e : Ent) : Nat := fld e 137 136
/-- WLSB of OPEN_GROUP. -/
def eWlsb (e : Ent) : Int := toSigned 10 (fld e 121 112)
/-- STATS of OPEN_GROUP. -/
def eStats (e : Ent) : Nat := fld e 125 124
/-- PRELOAD. -/
def ePreload (e : Ent) : Bool := bit e 128
/-- PRE_RGN. -/
def ePreRgn (e : Ent) : Nat := fld e 135 130
/-- PRE_LINE. -/
def ePreLine (e : Ent) : Nat := fld e 155 136
/-- PRE_FMT. -/
def ePreFmt (e : Ent) : Nat := fld e 157 156
/-- ACTION of CLOSE_GROUP. -/
def eAction (e : Ent) : Nat := fld e 74 72
/-- RGN of CLOSE_GROUP. -/
def eCloseRgn (e : Ent) : Nat := fld e 81 76
/-- LINE of CLOSE_GROUP. -/
def eCloseLine (e : Ent) : Nat := fld e 101 82
/-- OUT_FMT of CLOSE_GROUP. -/
def eCloseFmt (e : Ent) : Nat := fld e 108 104
/-- CPACE. -/
def eCpace (e : Ent) : Nat := fld e 117 112
/-- STATS_OUT. -/
def eStatsOut (e : Ent) : Nat := fld e 137 136
/-- AUX index of CLOSE_GROUP and FORWARD. -/
def eAux (e : Ent) : Nat := fld e 153 144
/-- DIR of FORWARD. -/
def eDir (e : Ent) : Nat := fld e 4 4

/-- What the claims of a program depend on besides its entries. -/
structure PEnv where
  /-- Accumulator banks. -/
  nb : Nat
  /-- Region table in force. -/
  rgn : Nat → Region

/-- The entries of a half as a function of the index. -/
abbrev Ents := Nat → Ent

/-- The OPEN_GROUP that opens group g for entry i: the one of highest index below i. -/
def opener (ents : Ents) (i g : Nat) : Option Nat :=
  ((List.range i).filter fun j => decide (0 < j) && eKind (ents j) == 4 && eRgn (ents j) == g).getLast?

/-- Lanes per close unit U (08 R242). -/
def unitLanes (fmt : Nat) : Nat := if fmt = 1 ∨ fmt = 2 then 64 else if fmt = 3 then 32 else 128

/-- Stored bytes of the first n lanes of a close (08 R242). -/
def closeBytes (fmt n : Nat) : Nat :=
  if isPlain fmt then n * plainWidth fmt else n / 32 * unitBytes fmt

/-- Weight elements per unit of an optimizer close (10 R287). -/
def optU (wfmt : Nat) : Nat := 128 / plainWidth wfmt

/-- State lines per unit per moment (10 R287). -/
def optLs (wfmt stateFmt : Nat) : Nat := optU wfmt * (if stateFmt = 0 then 4 else 2) / 128

/-- Lines of close unit m in the order of R158: weight, first moments, second moments. -/
def optLines (aux : Ent) (wfmt m : Nat) : List Nat :=
  let ls := optLs wfmt (fld aux 71 71)
  let opt := fld aux 66 64
  [fld aux 107 88 + m] ++
  (if 1 ≤ opt then (List.range ls).map fun i => fld aux 135 116 + m * ls + i else []) ++
  (if opt = 2 then (List.range ls).map fun i => fld aux 163 144 + m * ls + i else [])

/-- A slot claim of R158. -/
structure Claim where
  /-- Frame sclk. -/
  t : Nat
  /-- 0 thallus, 1 egress, 2 ingress, 3 accumulator bank. -/
  cls : Nat
  /-- Thallus: 0 read, 1 write, 2 read of copy B. Accumulator: 0 clear, 1 preload write, 2 add, 3 read. -/
  op : Nat
  /-- LINE, or lane. -/
  what : Nat
  /-- Beat, flit, line index or unit. -/
  k : Nat
  /-- Line within the unit. -/
  i : Nat
deriving DecidableEq, Repr

/-- Slots of copy B of a mirror line read in slot r (04 R138). -/
def twinSlot (line twin r : Nat) : Nat :=
  if bankGroup (lineBank line) = bankGroup (lineBank twin) then r + 1 else r

/-- Lanes an INGRESS_ACC beat adds into, in the order of the adds: element within the beat and lane (06 R193; 08 R236). -/
def accLanes (lane epb k bt : Nat) (stats : Bool) : List (Nat × Nat) :=
  let i0 := k % bt * epb
  if stats then (List.range (2 * epb)).map fun j => (j / 2, lane + 2 * i0 + j)
  else (List.range epb).map fun j => (j, lane + i0 + j)

/-- Claims of one entry in sclk order, ties thallus, egress, ingress, accumulator (R158, R165). -/
def claimsRaw (v : PEnv) (ents : Ents) (n : Nat) : List Claim :=
  let e := ents n
  let s := eStart e
  match eKind e with
  | 0x1 =>
    let r := v.rgn (eRgn e)
    ((List.range (eLines e)).flatMap fun j =>
      let l := eLine e + j
      let t := s + j * eRpace e / 16
      if r.mirror then
        let b := twinLine r l
        [⟨t, 0, 0, l, j, 0⟩, ⟨twinSlot l b t, 0, 2, b, j, 0⟩]
      else [⟨t, 0, 0, l, j, 0⟩]) ++
    (List.range (eBeats e)).map fun k => ⟨s + eLead e + k, 1, 0, 0, k, 0⟩
  | 0x2 =>
    (List.range (eBeats e)).flatMap fun k =>
      [⟨s + k * ePace e, 2, 0, 0, k, 0⟩, ⟨s + k * ePace e, 0, 1, eLine e + k, k, 0⟩]
  | 0x3 =>
    let st := match opener ents n (eRgn e) with | some o => eStats (ents o) == 1 | none => false
    let epb := 128 / inWidth (eIn e)
    let bt := beatsPerTile (eShape e) (inWidth (eIn e))
    (List.range (eBeats e)).flatMap fun k =>
      let c := s + k * ePace e
      ⟨c, 2, 0, 0, k, 0⟩ :: (accLanes (eLane e) epb k bt st).zipIdx.map fun x => ⟨c + 2 + x.2 / v.nb, 3, 2, x.1.2, k, x.1.1⟩
  | 0x4 =>
    let lanes := eLines e
    if ePreload e then
      let el := if eStats e = 1 then lanes / 2 else lanes
      (List.range (cdiv (el * inWidth (ePreFmt e)) 128)).map (fun j => ⟨s + j, 0, 0, ePreLine e + j, j, 0⟩) ++
      (List.range lanes).map fun i => ⟨s + 12 + i / v.nb, 3, 1, eLane e + i, i, 0⟩
    else (List.range lanes).map fun i => ⟨s + 2 + i / v.nb, 3, 0, eLane e + i, i, 0⟩
  | 0x5 =>
    match opener ents n (eRgn e) with
    | none => []
    | some o =>
      let lane := eLane (ents o)
      let lanes := eLines (ents o)
      if eAction e = 1 ∨ eAction e = 2 then
        let f := eCloseFmt e
        let u := unitLanes f
        (List.range (cdiv lanes u)).flatMap fun m =>
          let um := min u (lanes - m * u)
          let b := s + m * eCpace e
          let l0 := closeBytes f (m * u) / 128
          let l1 := if m * u + um = lanes then cdiv (closeBytes f lanes) 128 else closeBytes f (m * u + um) / 128
          (List.range um).map (fun q => ⟨b + q / v.nb, 3, 3, lane + m * u + q, m, 0⟩) ++
          (List.range (l1 - l0)).map fun i => ⟨b + cdiv um v.nb + 8 + i, 0, 1, eCloseLine e + l0 + i, m, i⟩
      else if eAction e = 4 then
        let aux := ents (eAux e)
        let wf := (v.rgn (fld aux 85 80)).fmt
        let u := optU wf
        (List.range (lanes / u)).flatMap fun m =>
          let b := s + m * eCpace e
          let ls := optLines aux wf m
          let w := b + max (cdiv u v.nb) ls.length + 12
          (List.range u).map (fun q => ⟨b + q / v.nb, 3, 3, lane + m * u + q, m, 0⟩) ++
          ls.zipIdx.map (fun x => ⟨b + x.2, 0, 0, x.1, m, x.2⟩) ++
          ls.zipIdx.map fun x => ⟨w + x.2, 0, 1, x.1, m, x.2⟩
      else []
  | 0x6 =>
    (List.range (eBeats e)).flatMap fun k =>
      let c := s + k * ePace e
      if eDir e = 1 then
        ⟨c, 2, 0, 0, k, 0⟩ :: (List.range 8).map fun q => ⟨c + 2 + q / v.nb, 3, 2, eLane e + 8 * k + q, k, q⟩
      else
        (List.range 8).map (fun q => ⟨c + q / v.nb, 3, 3, eLane e + 8 * k + q, k, q⟩) ++
          [⟨c + cdiv 8 v.nb + 2, 1, 0, 0, k, 0⟩]
  | _ => []

/-- Claim a comes no later than claim b in the order of R165. -/
def claimLe (a b : Claim) : Bool := decide (a.t < b.t) || (a.t == b.t && decide (a.cls ≤ b.cls))

/-- Claims of an entry in the order of R165. -/
def claimsOf (v : PEnv) (ents : Ents) (n : Nat) : List Claim := sortBy claimLe (claimsRaw v ents n)

/-- Row commands R119 implies for one bank's accesses (slot, row) in sclk order: each command's first and last slot, precharge or
activation, and whether a precharge starts too early. -/
def rowCmds : Option (Nat × Nat) → List (Nat × Nat) → List (Int × Int) × Bool
  | _, [] => ([], false)
  | prev, (s, r) :: l =>
    let (cs, bad) := rowCmds (some (s, r)) l
    match prev with
    | none => (((s : Int) - 24, (s : Int) - 1) :: cs, bad)
    | some (s', r') =>
      if r' = r then (cs, bad)
      else (((s : Int) - 40, (s : Int) - 25) :: ((s : Int) - 24, (s : Int) - 1) :: cs,
        bad || decide ((s : Int) - 40 < (s' : Int) + 1))

/-- Row that a bank's scheduled accesses leave open when only the row commands that start before frame sclk `h` are made (04 R119; 05 R177):
none when none is made, and some none when the last one is a precharge. -/
def rowLeft (h : Nat) : Option (Nat × Nat) → List (Nat × Nat) → Option (Option Nat)
  | _, [] => none
  | prev, (s, r) :: l =>
    let own : Option (Option Nat) := match prev with
      | none => if s < h + 24 then some (some r) else none
      | some (_, r') =>
        if r' = r then none
        else if s < h + 24 then some (some r)
        else if s < h + 40 then some none
        else none
    match rowLeft h (some (s, r)) l with
    | some x => some x
    | none => own

/-- Accesses (slot, row) of a bank among claims, in sclk order. -/
def bankAccs (cs : List Claim) (bank : Nat) : List (Nat × Nat) :=
  sortBy (fun a b => decide (a.1 ≤ b.1))
    ((cs.filter fun c => c.cls == 0 && lineBank c.what == bank).map fun c => (c.t, lineRow c.what))

/-- Line accesses of claims (04 R121): every thallus claim is one. -/
def lineAccesses (cs : List Claim) : Nat := cs.countP fun c => c.cls == 0

/-- All claims of a program of `count` entries. -/
def programClaims (v : PEnv) (ents : Ents) (count : Nat) : List Claim :=
  (List.range count).flatMap fun i => claimsOf v ents (i + 1)

/-- Earliest thallus claim or implied row command, 0x1FFFF for none (R170, R182). -/
def firstClaim (cs : List Claim) : Nat :=
  let all := (List.range 16).flatMap fun b =>
    let a := bankAccs cs b
    a.map (fun x => (x.1 : Int)) ++ (rowCmds none a).1.map (·.1)
  (all.foldl (fun m x => min m x) (0x1FFFF : Int)).toNat

/-- An entry that makes claims or acts at a START (R148). -/
def isTimed (e : Ent) : Bool := decide (1 ≤ eKind e) && decide (eKind e ≤ 0xA)

end Sys2Proof.Machine
end

