-- ==== Sys2Proof/Machine/Optimizer.lean ====
section
/-!
DEFINITION. In-place optimizer steps: the element arithmetic, the random bits, a close unit, and the step slots at a frame start
(10_update_engines.md R286-R292).
-/

namespace Sys2Proof.Machine

/-- What an element's step depends on besides its own data. -/
structure OptCtx where
  /-- OPT. -/
  opt : Nat
  /-- SR. -/
  sr : Bool
  /-- POISON_POL. -/
  ppol : Bool
  /-- NONFIN_POL. -/
  npol : Bool
  /-- STATE_FMT. -/
  sfmt : Nat
  /-- SEED. -/
  seed : Nat
  /-- Stored format of the weights. -/
  wfmt : Nat
  /-- CHIP_ID. -/
  chip : Nat
  /-- TILE_ID. -/
  tile : Nat
  /-- Applied SAT_FP8 of closes. -/
  satFp8 : Bool
  /-- Applied SAT_WIDE of closes. -/
  satWide : Bool
  /-- T. -/
  t : Nat
  /-- LR. -/
  lr : Nat
  /-- WD. -/
  wd : Nat
  /-- GSCALE. -/
  gs : Nat
  /-- BETA1. -/
  b1 : Nat
  /-- BETA2. -/
  b2 : Nat
  /-- EPS. -/
  eps : Nat
  /-- C1. -/
  c1 : Nat
  /-- C2. -/
  c2 : Nat
  /-- BC1. -/
  bc1 : Nat
  /-- BC2. -/
  bc2 : Nat
deriving DecidableEq, Repr

/-- Offset of a step slot's registers in page UPD. -/
def slotOfs (slot : Nat) : Nat := 0x200 + 0x40 * slot

/-- Slot values T, LR, WD, GSCALE, BETA1, BETA2, EPS and the constants C1, C2, BC1, BC2 that the slot registers give (R289). -/
def slotConsts (s : State) (slot : Nat) : List Word :=
  let r := fun o => s.rg (rk 0x06 (slotOfs slot + o))
  let f := fun o => BitVec.ofNat 32 (rnF32 ((Val.ofInt 1 0).sub (valF32 (r o).toNat)))
  [r 0x00, r 0x04, r 0x08, r 0x0C, r 0x10, r 0x14, r 0x18, f 0x10, f 0x14, f 0x1C, f 0x20]

/-- Context of a close with ACTION 4 whose descriptor is `aux`. -/
def optCtx (s : State) (aux : Ent) (wfmt : Nat) : OptCtx :=
  let slot := fld aux 75 72
  let vs := (smGet s.upd.consts slot).getD (slotConsts s slot)
  let r := fun i => (nth vs i 0).toNat
  { opt := fld aux 66 64, sr := bit aux 67, ppol := bit aux 68, npol := bit aux 69, sfmt := fld aux 71 71, seed := fld aux 175 164
    wfmt := wfmt, chip := s.straps.chip, tile := s.straps.tile, satFp8 := s.acc.satFp8, satWide := s.acc.satWide
    t := r 0, lr := r 1, wd := r 2, gs := r 3, b1 := r 4, b2 := r 5, eps := r 6, c1 := r 7, c2 := r 8, bc1 := r 9, bc2 := r 10 }

/-- sr_bits() of R291. -/
def srBits (t seed chip slice line e : Nat) : Nat :=
  let m := 2 ^ 64
  let a := (t * 2 ^ 32 + seed) % m
  let b := (chip * 2 ^ 35 + slice * 2 ^ 27 + line * 2 ^ 7 + e) % m
  let x0 := a ^^^ (b * 0x9C3B52E10D7F64A5 % m)
  let round := fun (x i : Nat) =>
    let x1 := x ^^^ (x >>> 31)
    let x2 := x1 * 0xB58E1C7AD2F34E69 % m
    let x3 := x2 ^^^ (x2 >>> 29)
    (x3 + (b ^^^ (i * 2 ^ 56))) % m
  round (round (round x0 0) 1) 2 / 2 ^ 32

/-- rs() of R290. -/
def OptCtx.rs (c : OptCtx) (v : Val) : Nat := ((if c.sfmt = 0 then fpF32 else fpBf16).convert false v).raw

/-- Decode a state element. -/
def OptCtx.dec (c : OptCtx) (raw : Nat) : Val := (if c.sfmt = 0 then fpF32 else fpBf16).decode raw

/-- wr() of R291 for element e of a weight line. -/
def OptCtx.wr (c : OptCtx) (line e : Nat) (v : Val) : Nat :=
  if c.sr then (plainFp c.wfmt).convertSr (if c.wfmt = 4 then c.satFp8 else c.satWide) (srBits c.t c.seed c.chip c.tile line e) v
  else closeConvert c.wfmt c.satFp8 c.satWide v

/-- Result of one element: weight, moments, and why it was skipped (0 poison, 1 special). -/
structure OptElem where
  /-- Weight bits. -/
  w : Nat
  /-- First moment bits. -/
  m : Nat
  /-- Second moment bits. -/
  v : Nat
  /-- Skipped. -/
  skip : Option Nat
deriving DecidableEq, Repr

/-- One element (R290, R292). -/
def optElem (c : OptCtx) (x : Lane) (wlsb : Int) (line e w m v : Nat) : OptElem :=
  if x.poison && !c.ppol then ⟨w, m, v, some 0⟩
  else if x.sp ≠ 0 ∧ !c.npol then ⟨w, m, v, some 1⟩
  else
    let f := valF32
    let g := if x.sp ≠ 0 then closeVal x wlsb else f (rnF32 ((closeFin x wlsb).mul (f c.gs)))
    let wv := (plainFp c.wfmt).decode w
    let step := fun (u : Val) => c.wr line e (wv.sub ((f c.lr).mul u))
    let gw := g.add ((f c.wd).mul wv)
    if c.opt = 0 then ⟨step gw, m, v, none⟩
    else if c.opt = 1 then
      let m2 := c.rs (((f c.b1).mul (c.dec m)).add gw)
      ⟨step (c.dec m2), m2, v, none⟩
    else
      let m2 := c.rs (((f c.b1).mul (c.dec m)).add ((f c.c1).mul g))
      let v2 := c.rs (((f c.b2).mul (c.dec v)).add (((f c.c2).mul g).mul g))
      let mh := f (rnF32 ((c.dec m2).div (f c.bc1)))
      let vh := f (rnF32 ((c.dec v2).div (f c.bc2)))
      let dn := f (rnF32 ((f (rnF32 vh.sqrt)).add (f c.eps)))
      ⟨step ((f (rnF32 (mh.div dn))).add ((f c.wd).mul wv)), m2, v2, none⟩

/-- Lines of one array of a unit: bytes of the elements and the spores of their granules. -/
def packArray (raws : List Nat) (w : Nat) (flags : List Bool) (old : List Line) : List Line :=
  let n := 128 / w
  old.zipIdx.map fun p =>
    let es := (raws.drop (p.2 * n)).take n
    let fs := (flags.drop (p.2 * n)).take n
    { data := BitVec.ofNat 1024 ((es.zipIdx.map fun q => q.1 * 256 ^ (w * q.2)).foldl (· + ·) 0)
      sp0 := p.1.sp0 || (fs.take (n / 2)).any id, sp1 := p.1.sp1 || (fs.drop (n / 2)).any id }

/-- Element i of an array of lines. -/
def arrElem (ls : List Line) (w i : Nat) : Nat :=
  let b := i * w
  match ls[b / 128]? with
  | some l => (l.data.toNat >>> (8 * (b % 128))) % 256 ^ w
  | none => 0

/-- Spore of the granule of element i of an array of lines. -/
def arrSpore (ls : List Line) (w i : Nat) : Bool :=
  let b := i * w
  match ls[b / 128]? with
  | some l => if b % 128 < 64 then l.sp0 else l.sp1
  | none => false

/-- A unit's output: its lines in the order of R287 and the result of each element. -/
structure OptUnit where
  /-- Lines. -/
  lines : List Line
  /-- Elements. -/
  elems : List OptElem
deriving DecidableEq, Repr

/-- One close unit (R287, R290, R292): `xs` the lanes with a flag for a mismatch (R271), `old` the lines read, weight line first. -/
def optUnit (c : OptCtx) (wlsb : Int) (line : Nat) (xs : List (Lane × Bool)) (old : List Line) : OptUnit :=
  let ws := plainWidth c.wfmt
  let ss := if c.sfmt = 0 then 4 else 2
  let u := xs.length
  let ls := u * ss / 128
  let wl := old.take 1
  let ml := if 1 ≤ c.opt then (old.drop 1).take ls else []
  let vl := if c.opt = 2 then (old.drop (1 + ls)).take ls else []
  let es := xs.zipIdx.map fun p => optElem c p.1.1 wlsb line p.2 (arrElem wl ws p.2) (arrElem ml ss p.2) (arrElem vl ss p.2)
  let flags := (xs.zip es).zipIdx.map fun p =>
    let i := p.2
    let x := p.1.1
    x.2 || (p.1.2.skip.isNone && (x.1.poison || arrSpore wl ws i || arrSpore ml ss i || arrSpore vl ss i))
  { lines := packArray (es.map (·.w)) ws flags wl ++ packArray (es.map (·.m)) ss flags ml ++ packArray (es.map (·.v)) ss flags vl
    elems := es }

/-- Product rounded to FP32. -/
def mulRn (a b : Word) : Word := BitVec.ofNat 32 (rnF32 ((valF32 a.toNat).mul (valF32 b.toNat)))

/-- Advance a step slot (R289, step 1). -/
def advanceSlot (s : State) (slot : Nat) : State :=
  let k := fun o => rk 0x06 (slotOfs slot + o)
  let t := s.rg (k 0x00)
  let s1 := if t = 0xFFFFFFFF#32 then logErr s 0x06 4 (mkFld 3 0 slot) else s
  ((s1.rgSet (k 0x00) (t + 1)).rgSet (k 0x1C) (mulRn (s.rg (k 0x1C)) (s.rg (k 0x10)))).rgSet (k 0x20) (mulRn (s.rg (k 0x20)) (s.rg (k 0x14)))

/-- Update of the step slots at frame sclk 0 of a frame that runs (R288, R289). -/
def slotsAtFrame (s : State) : State :=
  let s1 := s.upd.advance.foldl advanceSlot s
  let s2 := s1.upd.held.foldl (fun s w => s.rgSet (rk 0x06 w.1) w.2) s1
  let cs := (List.range 16).map fun i => (i, slotConsts s2 i)
  { (s2.rgSet (rk 0x06 0x0B4) 0) with upd := { s2.upd with advance := [], held := [], consts := cs } }

end Sys2Proof.Machine
end

