-- ==== Sys2Proof/Machine/Tiers.lean ====
section
/-!
DEFINITION. Tier power states, wake and sleep requests, the wake governor (16_power_clocks_reset.md R425-R431; 05_frames_and_fronds.md R173,
R174).
-/

namespace Sys2Proof.Machine

/-- Code of a tier state (16 R425). -/
def tierCode : TState → Nat
  | .off => 0 | .sleep => 1 | .queued => 2 | .waking => 3 | .awake => 4 | .entering => 5 | .failed => 6

/-- PLAN_AWAKE of the active program. -/
def planActive (s : State) : Nat := s.rf (rk 0x01 0x084) 9 0
/-- PLAN_AWAKE of the PENDING program. -/
def planPending (s : State) : Nat := s.rf (rk 0x01 0x084) 25 16

/-- T9 is needed by a rebuild or serves a position (14 R386, R391). -/
def t9Needed (s : State) : Bool := s.spr.serves || s.spr.rebuild == .waking || s.spr.rebuild == .running || s.spr.rebuild == .paused

/-- The tier is needed awake (16, Who asks for a tier). -/
def tierNeeded (s : State) (n : Nat) : Bool :=
  (planActive s).testBit n || (planPending s).testBit n || (n == 9 && t9Needed s) || (tier s n).asked || (tier s n).bySeq

/-- A tier changes state, with its trace record (18 R478). -/
def tierTo (s : State) (n : Nat) (x : TierSt) : State :=
  let old := tier s n
  let s1 := setTier s n x
  if old.st = x.st then s1 else trace s1 6 0 (mkFld 3 0 n + mkFld 6 4 (tierCode x.st) + mkFld 9 7 (tierCode old.st))

/-- Tokens lapse when the queue is empty (16 R429). -/
def lapse (s : State) : State := if s.pwr.queue.isEmpty then { s with pwr := { s.pwr with tokens := 0 } } else s

/-- Join the wake queue (16 R428, R429). -/
def enqueueTier (s : State) (n : Nat) : State :=
  let x := tier s n
  let s1 := tierTo s n { x with st := .queued, fromSleep := x.st == .sleep, thenQueue := false }
  { s1 with pwr := { s1.pwr with queue := s1.pwr.queue ++ [n] } }

/-- A wake request (16 R428); `asked` marks one of a frond or a command, `bySeq` one of the reset sequence. -/
def wakeTier (s : State) (n : Nat) (asked bySeq : Bool) : State :=
  let x := tier s n
  let y := { x with asked := x.asked || asked, bySeq := x.bySeq || bySeq }
  match x.st with
  | .off => enqueueTier (setTier s n y) n
  | .sleep => enqueueTier (setTier s n y) n
  | .queued => setTier s n y
  | .entering => setTier s n { y with thenQueue := true, thenOff := false }
  | .waking => s
  | .awake => s
  | .failed => s

/-- Leave the wake queue for the previous state. -/
def dequeueTier (s : State) (n : Nat) : State :=
  let x := tier s n
  let s1 := tierTo s n { x with st := if x.fromSleep then .sleep else .off, asked := false, bySeq := false }
  lapse { s1 with pwr := { s1.pwr with queue := s1.pwr.queue.filter fun q => q != n } }

/-- Queued tiers that nothing needs awake any longer leave the queue (16 R428). -/
def pruneQueue (s : State) : State :=
  (s.pwr.queue.filter fun n => !tierNeeded s n).foldl dequeueTier s

/-- The tier starts to enter self-refresh, or the off state (16 R427, R451). -/
def enterSleep (s : State) (n : Nat) (off : Bool) : State :=
  tierTo s n { tier s n with st := .entering, start := s.now, thenOff := off, thenSleep := false }

/-- Contents of a tier are lost: its data become undefined (04 R132). -/
def loseTier (s : State) (n : Nat) : State :=
  { s with thl := { s.thl with
      cells := s.thl.cells.filter fun e => !(e.1 / (16 * 1032 * 64) == n)
      gen := setTen s.thl.gen n (nth s.thl.gen n 0 + 1)
      base := setTen s.thl.base n 0 } }

/-- A sleep request, or with `off` an off request (16 R428, R451). -/
def sleepTierReq (s : State) (n : Nat) (off : Bool) : State :=
  let x := tier s n
  match x.st with
  | .off => s
  | .sleep => if off then loseTier (tierTo s n { x with st := .off }) n else s
  | .queued => let s1 := dequeueTier s n; if off then loseTier (tierTo s1 n { tier s1 n with st := .off }) n else s1
  | .waking => setTier s n { x with thenSleep := true, thenOff := x.thenOff || off, asked := false }
  | .awake => enterSleep s n off
  | .entering => if off then setTier s n { x with thenOff := true, thenQueue := false } else s
  | .failed => s

/-- Spacing before a wake that starts now (16 R429, R450). -/
def wakeSpacing (s : State) : Nat := cdiv 1600 (max 1 (limitAt s (rk 0x0B 0x050) s.now))

/-- Send a WAKE_REQ for the queued tiers (16 R429, R430). -/
def sendWakeReq (s : State) (resends : Nat) (slow : Bool) : State :=
  let n := min s.pwr.queue.length 10
  sendSnet { s with pwr := { s.pwr with req := some (n, s.now, resends, slow) } } 5 (s.straps.tile + n * 256) s.now

/-- One sclk of the governor (16 R429): the request for tokens, then at most one wake start. -/
def governor (s0 : State) : State :=
  let s := lapse s0
  let ask := s.straps.tokenEn && !s.pwr.queue.isEmpty && s.pwr.tokens == 0 && s.pwr.req.isNone
  let s1 := if ask then sendWakeReq s 0 false else s
  let spaced := match s1.pwr.lastStart with | some a => decide (a + wakeSpacing s1 ≤ s1.now) | none => true
  match s1.pwr.queue with
  | [] => s1
  | n :: rest =>
    if (!s1.straps.tokenEn || decide (0 < s1.pwr.tokens)) && spaced then
      let x := tier s1 n
      let s2 := tierTo s1 n { x with st := .waking, start := s1.now, tmo := limitAt s1 (rk 0x0B 0x054) s1.now, asked := false, bySeq := false }
      let s3 := pmuEv (s2.bump (rk 0x0B 0x064)) 0x68 1
      let s4 := { s3 with pwr := { s3.pwr with
        queue := rest, lastStart := some s3.now, tokens := if s3.straps.tokenEn then s3.pwr.tokens - 1 else s3.pwr.tokens } }
      -- a used-up grant asks again in the same sclk (R429)
      if s4.straps.tokenEn && !rest.isEmpty && s4.pwr.tokens == 0 && s4.pwr.req.isNone then sendWakeReq s4 0 false else lapse s4
    else s1

/-- The wake of a tier ends and it is AWAKE (16 R426, R450); T9 then starts its rebuild (14 R389). -/
def wakeEnds (s : State) (n : Nat) : State :=
  let x := tier s n
  let d := min (s.now - x.start) 16383
  let s1 := s.rgSet (rk 0x0B 0x060) (BitVec.ofNat 32 (0x80000000 + mkFld 3 0 n + mkFld 4 4 (b2n (!x.fromSleep)) + mkFld 18 5 d))
  let s2 := tierTo s1 n { x with st := .awake }
  let s3 := if n = 9 ∧ s2.spr.rebuild = .waking then { s2 with spr := { s2.spr with rebuild := .running } } else s2
  if x.thenSleep then enterSleep s3 n x.thenOff else s3

/-- The sleep entry of a tier ends (16 R427, R428, R451). -/
def entryEnds (s : State) (n : Nat) : State :=
  let x := tier s n
  if x.thenOff then loseTier (tierTo s n { x with st := .off, thenOff := false }) n
  else
    let s1 := tierTo s n { x with st := .sleep }
    if x.thenQueue then enqueueTier s1 n else s1

/-- A tier needs an access that is not open to it: some position's tier is not AWAKE (04 R136). A failed tier is not waited for. -/
def thallusAwake (s : State) : Bool :=
  (List.range 9).all fun n => tierFailed s n || (tier s n).st == .awake

/-- T9 is AWAKE wherever it serves (04 R136; 14 R388). -/
def t9Awake (s : State) : Bool :=
  !(s.spr.serves || (s.spr.rebuild == .running || s.spr.rebuild == .paused)) || tierFailed s 9 || (tier s 9).st == .awake

end Sys2Proof.Machine
end

