-- ==== Sys2Proof/Machine/Validator.lean ====
section
/-!
DEFINITION. The validator: header and entry checks, claim placement, budgets and the time it takes (05_frames_and_fronds.md R159-R166,
R173; 03 R98, R99, R106; 04 R141; 06 R188, R192; 07 R205, R211; 08 R248; 09 R262, R263; 10 R293).
-/

namespace Sys2Proof.Machine

/-- Everything the validator looks at besides the half. -/
structure VEnv where
  /-- Build. -/
  build : Build
  /-- CHIP_ID. -/
  chip : Nat
  /-- TILE_ID. -/
  tile : Nat
  /-- TICK_PERIOD. -/
  per : Nat
  /-- REFRESH_RESERVE. -/
  rr : Nat
  /-- UNSCHED_MIN.SHARE. -/
  share : Nat
  /-- ENERGY_CAP.CAP. -/
  cap : Nat
  /-- ABI_SEL.LEVEL. -/
  lvl : Nat
  /-- CTL.SEQ_CHECK. -/
  seqCheck : Bool
  /-- STATUS.LOADED_V and SEQ.LOADED. -/
  loaded : Option Nat
  /-- S attribute of the program. -/
  secure : Bool
  /-- Active table. -/
  act : Nat → Region
  /-- Shadow table, while a commit is pending (R106). -/
  shd : Option (Nat → Region)
  /-- ENG domain on. -/
  eng : Bool

/-- W of R145. -/
def VEnv.w (v : VEnv) : Nat := v.rr / 2
/-- U of R163. -/
def VEnv.u (v : VEnv) : Nat := 2 * v.per * v.share / 64
/-- CAPL of R163. -/
def VEnv.capl (v : VEnv) : Nat := v.per * v.cap / 256
/-- Claims environment of the active table. -/
def VEnv.penv (v : VEnv) : PEnv := ⟨nBanks v.build, v.act⟩

/-- The bits of the ranges. -/
def maskOf (l : List (Nat × Nat)) : Nat := l.foldl (fun a r => a ||| ((2 ^ (r.1 + 1 - r.2) - 1) * 2 ^ r.2)) 0

/-- A bit outside the ranges is set. -/
def hasOther (e : Ent) (l : List (Nat × Nat)) : Bool := e.toNat &&& ((2 ^ 256 - 1) ^^^ maskOf l) != 0

/-- Header faults (codes 0x01-0x04), the first (R164). -/
def headerCode (v : VEnv) (h : Ent) : Nat :=
  if hasOther h [(19, 0), (33, 24), (52, 36), (73, 64), (127, 96)] then 0x01
  else if fld h 19 16 ≠ v.lvl then 0x02
  else if fld h 52 36 ≠ v.per then 0x03
  else match v.loaded with
    | some l => if v.seqCheck && hdrSeq h != (l + 1) % 65536 then 0x04 else 0
    | none => 0

/-- Field ranges the table of a kind names (R148-R156). -/
def kindBits (e : Ent) : List (Nat × Nat) :=
  [(3, 0), (24, 8)] ++
  match eKind e with
  | 0x1 => [(47, 32), (55, 48), (69, 64), (91, 72), (111, 96), (127, 112), (139, 128), (151, 144), (155, 152), (159, 156)]
  | 0x2 => [(47, 32), (69, 64), (91, 72), (127, 112), (132, 128), (159, 156)]
  | 0x3 => [(47, 32), (69, 64), (85, 72), (127, 112), (133, 128), (137, 136), (159, 156)]
  | 0x4 => [(69, 64), (85, 72), (111, 96), (121, 112), (125, 124), (128, 128), (135, 130), (155, 136), (157, 156)]
  | 0x5 => [(69, 64), (74, 72), (81, 76), (101, 82), (108, 104), (117, 112), (137, 136), (153, 144)]
  | 0x6 => [(4, 4), (47, 32), (69, 64), (85, 72), (127, 112), (132, 128), (153, 144)] ++ (if eDir e = 0 then [(55, 48)] else [])
  | 0x7 => [(73, 64)]
  | 0x8 => [(73, 64)]
  | 0x9 => [(75, 64), (112, 96)]
  | 0xA => [(72, 64), (91, 82)]
  | _ =>
    [(7, 4)] ++
    (if eSub e = 1 then [(79, 64), (89, 80), (91, 90), (95, 92), (100, 96), (107, 104), (119, 112), (134, 120)]
     else [(75, 64), (85, 80), (107, 88), (113, 108), (135, 116), (141, 136), (163, 144), (175, 164)])

/-- ROLE of a tree descriptor (09 R260). -/
def tRole (a : Ent) : Nat := fld a 91 90
/-- CHILD. -/
def tChild (a : Ent) : Nat := fld a 95 92
/-- NCHILD. -/
def tNchild (a : Ent) : Nat := fld a 100 96
/-- LEVEL. -/
def tLevel (a : Ent) : Nat := fld a 107 104

/-- Faults of a tree descriptor (09 R263). -/
def treeFault (a : Ent) : Bool :=
  hasOther a (kindBits a) || decide (2 ≤ tRole a) || (tRole a == 1 && (tNchild a == 0 || decide (tNchild a ≤ tChild a) || tLevel a == 0)) ||
  (tRole a == 0 && (tNchild a != 0 || tChild a != 0)) || decide (17 ≤ tNchild a)

/-- Faults of an optimizer descriptor (10 R293). -/
def optFault (a : Ent) : Bool :=
  let opt := fld a 66 64
  hasOther a (kindBits a) || decide (3 ≤ opt) ||
  (opt == 0 && (bit a 71 || fld a 113 108 != 0 || fld a 135 116 != 0)) ||
  (decide (opt ≤ 1) && (fld a 141 136 != 0 || fld a 163 144 != 0))

/-- Code 0x11 (R164). -/
def fieldFault (v : VEnv) (e : Ent) : Bool :=
  hasOther e (kindBits e) ||
  match eKind e with
  | 0x1 => eLines e == 0 || eBeats e == 0 || decide (eRpace e < 16) || decide (eLead e < 16) || decide (5 ≤ eOut e) || decide (7 ≤ eShape e)
  | 0x2 => eBeats e == 0 || ePace e == 0 || decide (16 < ePace e) || decide (7 ≤ eShape e)
  | 0x3 =>
    eBeats e == 0 || ePace e == 0 || decide (32 < ePace e) || eIn e == 3 || decide (7 ≤ eShape e) ||
    eLane e % nBanks v.build != 0 || (eBeats e % max 1 (beatsPerTile (eShape e) (inWidth (eIn e))) != 0)
  | 0x4 =>
    eLines e == 0 || decide (nLanes v.build < eLines e) || decide (2 ≤ eStats e) || (eStats e == 1 && eLines e % 2 == 1) ||
    (if ePreload e then ePreFmt e == 3 else ePreRgn e != 0 || ePreLine e != 0 || ePreFmt e != 0)
  | 0x5 =>
    let a := eAction e
    decide (5 ≤ a) ||
    (if a = 1 ∨ a = 2 then !(decide (1 ≤ eCloseFmt e) && (decide (eCloseFmt e ≤ 0xB) || eCloseFmt e == 0xD))
     else eCloseRgn e != 0 || eCloseLine e != 0 || eCloseFmt e != 0) ||
    (if a = 0 ∨ a = 3 then eCpace e != 0 else eCpace e == 0) ||
    (if a = 2 then decide (2 ≤ eStatsOut e) else eStatsOut e != 0) ||
    (a != 4 && eAux e != 0)
  | 0x6 => eBeats e == 0 || decide (2048 < eBeats e) || ePace e == 0 || decide (16 < ePace e)
  | 0x7 => fld e 73 64 == 0
  | 0x8 => fld e 73 64 == 0
  | 0xB => if eSub e = 1 then treeFault e else optFault e
  | _ => false

/-- Code 0x12: refused at behaviour level 1 (R148). -/
def level1Fault (e : Ent) : Bool :=
  match eKind e with
  | 0x1 => eOut e != 0
  | 0x4 => eStats e != 0
  | 0x5 => decide (2 ≤ eAction e) || (eAction e == 1 && !(eCloseFmt e == 1 || eCloseFmt e == 3))
  | 0x6 => true
  | 0xB => true
  | _ => false

/-- A region use of a frond: region number, permissions R and W, lines, formats allowed (none for any), and whether R99 bars it. -/
structure RgnUse where
  /-- Region number. -/
  n : Nat
  /-- Needs R. -/
  r : Bool
  /-- Needs W. -/
  w : Bool
  /-- First line. -/
  first : Nat
  /-- Lines. -/
  lines : Nat
  /-- Allowed FMT. -/
  fmts : Option (List Nat)
  /-- The frond is an EGRESS. -/
  egr : Bool
  /-- A mirror region is refused as MIRROR (R141, R248, R293). -/
  noMirror : Bool
deriving DecidableEq, Repr

/-- An AUX entry of the type, within COUNT (code 0x19). -/
def auxOk (ents : Ents) (count i sub : Nat) : Bool :=
  decide (1 ≤ i) && decide (i ≤ count) && eKind (ents i) == 0xB && eSub (ents i) == sub

/-- The regions a frond uses (03 R98; 08 R228, R248; 10 R287, R293). -/
def rgnUses (tbl : Nat → Region) (ents : Ents) (count i : Nat) : List RgnUse :=
  let e := ents i
  match eKind e with
  | 0x1 => [⟨eRgn e, true, false, eLine e, eLines e, none, true, false⟩]
  | 0x2 => [⟨eRgn e, false, true, eLine e, eBeats e, none, false, true⟩]
  | 0x4 =>
    if ePreload e then
      let el := if eStats e = 1 then eLines e / 2 else eLines e
      [⟨ePreRgn e, true, false, ePreLine e, cdiv (el * inWidth (ePreFmt e)) 128, none, false, true⟩]
    else []
  | 0x5 =>
    let lanes := match opener ents i (eRgn e) with | some o => eLines (ents o) | none => 0
    if eAction e = 1 ∨ eAction e = 2 then
      [⟨eCloseRgn e, false, true, eCloseLine e, cdiv (closeBytes (eCloseFmt e) lanes) 128, some [eCloseFmt e, 0], false, true⟩]
    else if eAction e = 4 ∧ auxOk ents count (eAux e) 2 = true then
      let a := ents (eAux e)
      let wf := (tbl (fld a 85 80)).fmt
      let n := lanes / optU wf
      let ls := optLs wf (fld a 71 71)
      [⟨fld a 85 80, true, true, fld a 107 88, n, none, false, true⟩] ++
      (if 1 ≤ fld a 66 64 then [⟨fld a 113 108, true, true, fld a 135 116, n * ls, none, false, true⟩] else []) ++
      (if fld a 66 64 = 2 then [⟨fld a 141 136, true, true, fld a 163 144, n * ls, none, false, true⟩] else [])
    else []
  | _ => []

/-- The region refuses the use under code 0x15 (03 R98, R99; 01 R26). Fronds act in ring 0. -/
def useFault (lvl : Nat) (secure : Bool) (tbl : Nat → Region) (u : RgnUse) : Bool :=
  let r := tbl u.n
  !r.valid || r.mode != 0 || (r.secure && !secure) ||
  (u.r && (!r.perm 0 0 || (u.egr && lvl == 1 && r.fmt != 0))) || (u.w && !r.perm 0 1) ||
  decide (u.first < r.base * 32) || decide (r.limit * 32 + 31 < u.first + u.lines - 1) ||
  (match u.fmts with | some l => !l.contains r.fmt | none => false)

/-- Code 0x15 for an entry under a table. -/
def regionFault (lvl : Nat) (secure : Bool) (tbl : Nat → Region) (ents : Ents) (count i : Nat) : Bool :=
  (rgnUses tbl ents count i).any (useFault lvl secure tbl)

/-- Code 0x16 for an entry under a table. -/
def mirrorFault (tbl : Nat → Region) (ents : Ents) (count i : Nat) : Bool :=
  (rgnUses tbl ents count i).any fun u => u.noMirror && (tbl u.n).mirror

/-- Code 0x17 (R161; 06 R188; 07 R211). -/
def sizeFault (r : Region) (e : Ent) : Bool :=
  eKind e == 1 &&
  (let f := r.fmt
   if eOut e = 0 then
     decide (6 ≤ f) || eLines e != eBeats e || eBeats e % (shapeElems (eShape e) * plainWidth f / 128) != 0
   else
     let w := outWidth (eOut e)
     let bt := beatsPerTile (eShape e) w
     let tiles := eBeats e / bt
     f == 0 || decide (0x10 < f) || (f == 0x0C && decide (128 < shapeCols (eShape e) * w)) || eBeats e % bt != 0 ||
     (if isEpc f then decide (storedLines f (eShape e) tiles < eLines e) else storedLines f (eShape e) tiles != eLines e))

/-- Last read slot of line j of an EGRESS. -/
def egrSlot (r : Region) (e : Ent) (j : Nat) : Nat :=
  let t := eStart e + j * eRpace e / 16
  if r.mirror then twinSlot (eLine e + j) (twinLine r (eLine e + j)) t else t

/-- ready(j) of R160. -/
def egrReady (r : Region) (e : Ent) (j : Nat) : Nat := egrSlot r e j + (if r.mirror then 17 else 16)

/-- R160 broken. -/
def feedFault (r : Region) (e : Ent) : Bool :=
  let p := eStart e + eLead e
  (List.range (eBeats e)).any (fun k => decide (p + k < egrReady r e (cdiv ((k + 1) * eLines e) (eBeats e) - 1))) ||
  (List.range (eLines e)).any fun j =>
    decide (32 ≤ j) && decide (eStart e + j * eRpace e / 16 + 16 < p + (j - 32) * eBeats e / eLines e)

/-- What the validator keeps of a group. -/
structure VGroup where
  /-- Entry of its OPEN_GROUP. -/
  idx : Nat
  /-- Its START. -/
  start : Nat
  /-- First lane. -/
  lane : Nat
  /-- Lanes. -/
  lanes : Nat
  /-- STATS = 1. -/
  stats : Bool
  /-- WLSB. -/
  wlsb : Int
  /-- Offset of the clears or preload writes from START. -/
  off : Nat
  /-- Closed by an entry, with the last sclk of its span (R227). -/
  closeEnd : Option Nat
  /-- Last add or FORWARD read claimed. -/
  lastUse : Option Nat
  /-- Last claim of a FORWARD with DIR = 0. -/
  fwdEnd : Option Nat
  /-- TREE_ID of its FORWARDs. -/
  tree : Option Nat
  /-- NCHILD and LEVEL of its DIR = 1 fronds. -/
  kids : Option (Nat × Nat)
  /-- CHILD numbers named. -/
  named : List Nat
  /-- Adds claimed: lane, sclk and order class, 0 for INGRESS_ACC, CHILD + 1 for a partial (09 R261). -/
  adds : List (Nat × Nat × Nat)
deriving DecidableEq, Repr

/-- State of a validation. -/
structure VSt where
  /-- START of the last timed entry. -/
  prev : Nat
  /-- Groups seen, by number. -/
  groups : List (Nat × VGroup)
  /-- Thallus accesses placed: bank, slot, row. -/
  thl : List (Nat × Nat × Nat)
  /-- Presentations placed. -/
  egr : List Nat
  /-- Consumptions placed. -/
  ing : List Nat
  /-- Bank slots placed: bank, slot. -/
  acc : List (Nat × Nat)
  /-- Ingress windows: TAG, first and last sclk. -/
  tags : List (Nat × Nat × Nat)
  /-- Egress contexts: START and last presentation. -/
  ctxs : List (Nat × Nat)
  /-- A of R163. -/
  a : Nat
  /-- Claims placed, row commands apart. -/
  c : Nat
deriving DecidableEq, Repr

/-- The start of a validation. -/
def VSt.init : VSt := ⟨0, [], [], [], [], [], [], [], 0, 0⟩

/-- Accesses of a bank in sclk order. -/
def VSt.bank (st : VSt) (b : Nat) : List (Nat × Nat) :=
  sortBy (fun x y => decide (x.1 ≤ y.1)) ((st.thl.filter fun x => x.1 == b).map fun x => (x.2.1, x.2.2))

/-- Code 0x14 (R159, R164). -/
def timeFault (v : VEnv) (st : VSt) (e : Ent) (cs : List Claim) : Bool :=
  decide (v.per < eStart e + 65) ||
  cs.any (fun c => decide (v.per < c.t + 65) || (c.cls == 2 && decide (c.t < 24))) ||
  (List.range 16).any fun b =>
    let mine := bankAccs cs b
    !mine.isEmpty &&
      (rowCmds none (sortBy (fun x y => decide (x.1 ≤ y.1)) (st.bank b ++ mine))).1.any fun r => decide (r.1 < 0)

/-- Group under its number. -/
def VSt.grp (st : VSt) (g : Nat) : Option VGroup := smGet st.groups g

/-- The group is open at sclk t for R162 (R227). -/
def VGroup.openAt (g : VGroup) (t : Nat) : Bool :=
  decide (g.start ≤ t) && (match g.closeEnd with | some c => decide (t ≤ c) | none => true)

/-- Last clear or preload write of a lane. -/
def VGroup.clearAt (g : VGroup) (nb lane : Nat) : Nat := g.start + g.off + (lane - g.lane) / nb

/-- Code 0x1A (R162; 08 R248). -/
def groupFault (v : VEnv) (st : VSt) (e : Ent) (cs : List Claim) : Bool :=
  let k := eKind e
  let nb := nBanks v.build
  if k = 4 then
    (match v.build with | .S => eRgn e != 0 | .L => false) || decide (nLanes v.build < eLane e + eLines e) ||
    st.groups.any fun g => g.2.openAt (eStart e) &&
      (g.1 == eRgn e || (decide (eLane e < g.2.lane + g.2.lanes) && decide (g.2.lane < eLane e + eLines e)))
  else if k = 3 ∨ k = 5 ∨ k = 6 then
    match st.grp (eRgn e) with
    | none => true
    | some g =>
      g.closeEnd.isSome || decide (eStart e < g.start) ||
      (if k = 5 then
        let a := eAction e
        let first := match cs.head? with | some c => c.t | none => eStart e
        (a == 2 && !g.stats) || (a == 4 && g.stats) ||
        ((a == 1 || a == 2) && (decide (6 ≤ eCloseFmt e)) && g.lanes % 32 != 0) ||
        (match g.lastUse with | some u => decide (first ≤ u) | none => false) ||
        (a == 3 && (match g.fwdEnd with | some f => decide (eStart e ≤ f) | none => true))
       else
        let n := if k = 3 then shapeElems (eShape e) * (if g.stats then 2 else 1) else 8 * eBeats e
        decide (eLane e < g.lane) || decide (g.lane + g.lanes < eLane e + n) ||
        ((k == 3 || eDir e == 1) && g.fwdEnd.isSome)) ||
      cs.any fun c => c.cls == 3 && decide (2 ≤ c.op) && decide (c.t ≤ g.clearAt nb c.what)
  else false

/-- An add breaks the order of 09 R261 with one already claimed. -/
def orderFault (g : VGroup) (cs : List Claim) (cls : Nat) : Bool :=
  cs.any fun c => c.cls == 3 && c.op == 2 &&
    g.adds.any fun x => x.1 == c.what && ((decide (x.2.1 < c.t) && decide (cls < x.2.2)) || (decide (c.t < x.2.1) && decide (x.2.2 < cls)))

/-- Code 0x1B (09 R262). -/
def treeCode (v : VEnv) (st : VSt) (ents : Ents) (e : Ent) (cs : List Claim) : Bool :=
  let k := eKind e
  let short := fun (g : VGroup) => match g.kids with | some (n, _) => g.named.length != n | none => false
  match st.grp (eRgn e) with
  | none => false
  | some g =>
    if k = 3 then orderFault g cs 0
    else if k = 5 then short g
    else if k = 6 then
      let a := ents (eAux e)
      let same := fld a 134 120 == v.chip
      treeFault a || tRole a != eDir e || toSigned 10 (fld a 89 80) != g.wlsb ||
      (match g.tree with | some t => t != fld a 79 64 | none => false) ||
      (if eDir e = 1 then
        (match g.kids with | some (n, l) => n != tNchild a || l != tLevel a | none => false) ||
        g.named.contains (tChild a) || (same && fld a 119 112 == v.tile) || orderFault g cs (tChild a + 1)
       else
        tLevel a != (match g.kids with | some (_, l) => l | none => 0) ||
        (same && (eDst e != fld a 119 112 || fld a 119 112 == v.tile)) || short g)
    else false

/-- The line ranges share a line. -/
def sharesLine (a b : RgnUse) : Bool := decide (a.first < b.first + b.lines) && decide (b.first < a.first + a.lines)

/-- Code 0x1C (10 R293). -/
def optCode (v : VEnv) (ents : Ents) (count i : Nat) : Bool :=
  let e := ents i
  eKind e == 5 && eAction e == 4 &&
  (let a := ents (eAux e)
   let wf := (v.act (fld a 85 80)).fmt
   let lanes := match opener ents i (eRgn e) with | some o => eLines (ents o) | none => 0
   let us := rgnUses v.act ents count i
   optFault a || !isPlain wf || (bit a 71 && wf == 3) || lanes % optU wf != 0 ||
   (us.zipIdx.any fun x => us.zipIdx.any fun y => decide (x.2 < y.2) && sharesLine x.1 y.1))

/-- A frond needs engines or accumulators (01 R31). -/
def needsEng (e : Ent) : Bool := let k := eKind e; k == 3 || k == 4 || k == 5 || k == 6

/-- The first local check that refuses an entry, codes 0x10-0x1F ascending; 0 for none (R164, R165). A SLEEP_TIER that names T9 while the plan
has it awake is refused as for any planned tier (R173; DESIGN CHOICE, notes/assumptions/55.md). -/
def localCode (v : VEnv) (st : VSt) (ents : Ents) (count plan i : Nat) : Nat :=
  let e := ents i
  let k := eKind e
  let aux := k == 0xB
  if k = 0 ∨ 0xC ≤ k ∨ (aux = true ∧ ¬(eSub e = 1 ∨ eSub e = 2)) then 0x10
  else if fieldFault v e then 0x11
  else if v.lvl = 1 ∧ level1Fault e = true then 0x12
  else if (if aux then eStart e != 0 else decide (eStart e < st.prev)) then 0x13
  else if aux then 0
  else
    let cs := claimsOf v.penv ents i
    if timeFault v st e cs then 0x14
    else if regionFault v.lvl v.secure v.act ents count i then 0x15
    else if mirrorFault v.act ents count i then 0x16
    else if sizeFault (v.act (eRgn e)) e then 0x17
    else if k = 1 ∧ (feedFault (v.act (eRgn e)) e = true ∨
        8 ≤ st.ctxs.countP fun c => decide (c.1 ≤ eStart e) && decide (eStart e ≤ c.2)) then 0x18
    else if (k = 6 ∧ auxOk ents count (eAux e) 1 = false) ∨ (k = 5 ∧ eAction e = 4 ∧ auxOk ents count (eAux e) 2 = false) then 0x19
    else if groupFault v st e cs then 0x1A
    else if treeCode v st ents e cs then 0x1B
    else if optCode v ents count i then 0x1C
    else if needsEng e && !v.eng then 0x1D
    else if (cs.any (fun c => c.cls == 0) && fld (BitVec.ofNat 10 plan) 8 0 != 0x1FF) ||
        (k == 8 && (fld e 73 64 &&& plan) != 0) then 0x1E
    else match v.shd with
      | some t => if regionFault v.lvl v.secure t ents count i || mirrorFault t ents count i then 0x1F else 0
      | none => 0

/-- Intervals share a slot. -/
def meets (a b : Int × Int) : Bool := decide (a.1 ≤ b.2) && decide (b.1 ≤ a.2)

/-- Place one claim: the code that refuses it, 0 for none (codes 0x20-0x27, the lowest of several), and the new state. The sclk of the row
commands that a refused thallus claim implies do not count in C_N (DESIGN CHOICE, notes/assumptions/54.md). -/
def place (v : VEnv) (st : VSt) (c : Claim) : Nat × VSt :=
  let st1 := { st with c := st.c + 1 }
  if c.cls = 0 then
    let b := lineBank c.what
    let g := bankGroup b
    let st2 := { st1 with thl := st.thl ++ [(b, c.t, lineRow c.what)] }
    let (mine, bad) := rowCmds none (st2.bank b)
    let old := (rowCmds none (st.bank b)).1
    let fresh := mine.filter fun r => !old.contains r
    let others := (List.range 4).flatMap fun q => let b' := 4 * q + g; if b' = b then [] else (rowCmds none (st.bank b')).1
    let inGrp := st.thl.filter fun x => bankGroup x.1 == g
    if c.t < v.w ∨ fresh.any (fun r => decide (r.1 < (v.w : Int))) = true then (0x20, st1)
    else if 2 ≤ st.thl.countP fun x => x.2.1 == c.t then (0x24, st1)
    else if inGrp.any (fun x => x.2.1 == c.t) || (mine ++ others).any (fun r => meets r (c.t, c.t)) ||
        fresh.any (fun r => inGrp.any (fun x => meets r (x.2.1, x.2.1)) || others.any (meets r)) then (0x25, st1)
    else if bad then (0x26, st1)
    else (0, st2)
  else if c.cls = 1 then (if st.egr.contains c.t then 0x21 else 0, { st1 with egr := c.t :: st.egr })
  else if c.cls = 2 then (if st.ing.contains c.t then 0x22 else 0, { st1 with ing := c.t :: st.ing })
  else
    let k := (c.what % nBanks v.build, c.t)
    (if st.acc.contains k then 0x27 else 0, { st1 with acc := k :: st.acc })

/-- Place claims until one is refused. -/
def placeAll (v : VEnv) : VSt → List Claim → Nat × VSt
  | st, [] => (0, st)
  | st, c :: cs =>
    match place v st c with
    | (0, st') => placeAll v st' cs
    | (code, st') => (code, st')

/-- Ingress window of an entry: TAG, c(0) - 24 and the last c(k) (code 0x23). -/
def tagWindow (e : Ent) : Option (Nat × Nat × Nat) :=
  if eKind e = 2 ∨ eKind e = 3 ∨ (eKind e = 6 ∧ eDir e = 1) then
    some (eTag e, eStart e - 24, eStart e + (eBeats e - 1) * ePace e)
  else none

/-- The state after an accepted entry. -/
def noteEntry (v : VEnv) (st : VSt) (ents : Ents) (i : Nat) (cs : List Claim) : VSt :=
  let e := ents i
  let st1 := { st with
    prev := eStart e
    tags := st.tags ++ (tagWindow e).toList
    ctxs := if eKind e = 1 then (eStart e, eStart e + eLead e + eBeats e - 1) :: st.ctxs else st.ctxs }
  let _ := v
  let uses := (cs.filter fun c => c.cls == 3).map (·.t)
  let mx := fun (o : Option Nat) => uses.foldl (fun m t => some (match m with | some x => max x t | none => t)) o
  let upd := fun (f : VGroup → VGroup) => match st1.grp (eRgn e) with
    | some g => { st1 with groups := smPut st1.groups (eRgn e) (f g) }
    | none => st1
  let adds := fun (r : Nat) => (cs.filter fun c => c.cls == 3 && c.op == 2).map fun c => (c.what, c.t, r)
  match eKind e with
  | 0x3 => upd fun g => { g with lastUse := mx g.lastUse, adds := g.adds ++ adds 0 }
  | 0x4 =>
    let g : VGroup :=
      { idx := i, start := eStart e, lane := eLane e, lanes := eLines e, stats := eStats e == 1, wlsb := eWlsb e
        off := if ePreload e then 12 else 2, closeEnd := none, lastUse := none, fwdEnd := none, tree := none, kids := none
        named := [], adds := [] }
    { st1 with groups := smPut st1.groups (eRgn e) g }
  | 0x5 => upd fun g => { g with closeEnd := some (cs.foldl (fun m c => max m c.t) (eStart e)) }
  | 0x6 =>
    let a := ents (eAux e)
    upd fun g =>
      if eDir e = 1 then
        { g with lastUse := mx g.lastUse, tree := some (fld a 79 64), kids := some (tNchild a, tLevel a)
                 named := tChild a :: g.named, adds := g.adds ++ adds (tChild a + 1) }
      else
        { g with lastUse := mx g.lastUse, tree := some (fld a 79 64)
                 fwdEnd := some (cs.foldl (fun m c => max m c.t) (match g.fwdEnd with | some f => f | none => 0)) }
  | _ => st1

/-- Check one entry: its refusal code, 0 for none, and the state. -/
def checkEntry (v : VEnv) (st : VSt) (ents : Ents) (count plan i : Nat) : Nat × VSt :=
  let e := ents i
  match localCode v st ents count plan i with
  | 0 =>
    if eKind e = 0xB then (0, st)
    else
      let cs := claimsOf v.penv ents i
      let clash := match tagWindow e with
        | some (t, lo, hi) => st.tags.any fun x => x.1 == t && decide (lo ≤ x.2.2) && decide (x.2.1 ≤ hi)
        | none => false
      if clash then (0x23, st)
      else
        match placeAll v st cs with
        | (0, st1) =>
          let a := st1.a + lineAccesses cs
          let st2 := { st1 with a := a }
          if 2 * v.per < a + 128 + v.rr + v.u then (0x28, st2)
          else if v.capl < a + v.u then (0x29, st2)
          else (0, noteEntry v st2 ents i cs)
        | (code, st1) => (code, st1)
  | code => (code, st)

/-- Check entries i, i + 1, ... until one is refused: code, index and state. -/
def checkEntries (v : VEnv) (ents : Ents) (count plan : Nat) : Nat → Nat → VSt → Nat × Nat × VSt
  | 0, _, st => (0, 0, st)
  | n + 1, i, st =>
    match checkEntry v st ents count plan i with
    | (0, st') => checkEntries v ents count plan n (i + 1) st'
    | (code, st') => (code, i, st')

/-- Result of a validation. -/
structure VResult where
  /-- Refusal code, 0 for accepted. -/
  code : Nat
  /-- Entry index. -/
  idx : Nat
  /-- Its duration (R166). -/
  sclk : Nat
  /-- A of R163. -/
  a : Nat
  /-- Earliest thallus claim or implied row command. -/
  first : Nat
deriving DecidableEq, Repr

/-- Row command slots of the accesses placed. -/
def VSt.rowSlots (st : VSt) : Nat :=
  (List.range 16).foldl (fun n b => n + (rowCmds none (st.bank b)).1.foldl (fun m r => m + (r.2 + 1 - r.1).toNat) 0) 0

/-- Earliest access or row command placed. -/
def VSt.first (st : VSt) : Nat :=
  ((List.range 16).foldl (fun (m : Int) b =>
    let a := st.bank b
    (rowCmds none a).1.foldl (fun m r => min m r.1) (a.foldl (fun m x => min m (x.1 : Int)) m)) (0x1FFFF : Int)).toNat

/-- Validate a half (R165, R166). -/
def validate (v : VEnv) (ents : Ents) : VResult :=
  let h := ents 0
  let time := fun (n c : Nat) => 256 + 8 * (n + 1) + cdiv c 4
  match headerCode v h with
  | 0 =>
    let count := hdrCount h
    match checkEntries v ents count (hdrPlan h) count 1 VSt.init with
    | (0, _, st) =>
      let t := time count (st.c + st.rowSlots)
      match st.groups.find? fun g => g.2.closeEnd.isNone with
      | some g => ⟨0x30, g.2.idx, t, st.a, st.first⟩
      | none => ⟨0, 0, t, st.a, st.first⟩
    | (code, i, st) => ⟨code, i, time i (st.c + st.rowSlots), st.a, st.first⟩
  | code => ⟨code, 0, time 0 0, 0, 0x1FFFF⟩

end Sys2Proof.Machine
end

