-- ==== Sys2Proof/Machine/Fronds.lean ====
section
/-!
DEFINITION. What the fronds of a running frame do: starts, slot claims, egress flits, ingress beats, groups, closes, wakes, barriers and
fences (05_frames_and_fronds.md R170-R180; 06_streams.md R185-R193; 07_weight_decode.md R204-R220; 08_accumulation.md R226-R245;
10_update_engines.md R286-R292).
-/

namespace Sys2Proof.Machine

/-- Entries of the active half. -/
def actEnts (s : State) : Ents := entryOf s.frm.mem s.frm.activeHalf

/-- Claims environment of the active table. -/
def penvOf (s : State) : PEnv := ⟨nBanks s.straps.build, actRegion s⟩

/-- The sclk of a frame sclk of the current frame. -/
def frameAt (s : State) (c : Nat) : Nat := s.frm.frame0.getD 0 + c

/-- Something due at sclk `a` still happens: no fault has stopped the frame before. -/
def unhalted (s : State) (a : Nat) : Bool := match s.frm.haltAt with | some h => decide (a < h) | none => true

/-- A frond with START at sclk `a` starts: no quench fell before (02 R73). -/
def unquenched (s : State) (a : Nat) : Bool := match s.frm.stopAt with | some q => decide (a ≤ q) | none => true

/-- Key of a line or beat that an entry holds. -/
def heldKey (n i : Nat) : Nat := n * 1048576 + i

/-- A line or beat an entry holds. -/
def heldLine (s : State) (n i : Nat) : Option Line := smGet s.frm.held (heldKey n i)

/-- Hold a line or beat. -/
def holdLine (s : State) (n i : Nat) (l : Line) : State :=
  { s with frm := { s.frm with held := smPut s.frm.held (heldKey n i) l } }

/-- Claims of the fronds of the running frame that start: none when a fault has stopped it, and only those a quench let start (02 R73;
05 R177). -/
def startedClaims (s : State) : List Claim :=
  let ents := actEnts s
  if s.frm.active.isNone || !s.frm.runs || s.frm.haltAt.isSome then []
  else (List.range (hdrCount (ents 0))).flatMap fun i =>
    if unquenched s (frameAt s (eStart (ents (i + 1)))) then claimsOf (penvOf s) ents (i + 1) else []

/-- The schedule of the frame ends at the current sclk: the rows its commands have opened stay open, but for those that a catch-up round has
closed since (04 R120, R131; 05 R177). -/
def settleRows (s : State) : State :=
  let cs := startedClaims s
  let f0 := s.frm.frame0.getD 0
  let shut := fun b => (bankAccs cs b).all fun a => decide (f0 + a.1 < s.thl.shutAt)
  let rows := (List.range 16).foldl (fun m b => match rowLeft (s.now - f0) none (bankAccs cs b) with
    | some (some r) => if (smGet m b).isSome || shut b then m else smPut m b r
    | some none => smDel m b
    | none => m) s.thl.openRows
  { s with thl := { s.thl with openRows := rows } }

/-! ### Frame faults -/

/-- Discard the active half: its program is held no longer (05 R167, R177). -/
def dropActive (s : State) : State :=
  let s1 := (s.rgFld (rk 0x01 0x084) 9 0 0).rgSet (rk 0x01 0x07C) 0x1FFFF#32
  { s1 with frm := { s1.frm with active := none, mem := s1.frm.mem.filter fun e => !(e.1 / 8192 == s1.frm.activeHalf) } }

/-- A frame fault: 0 TICK_LOST, 1 BAR_TIMEOUT, 2 FMEM_UE, 3 OVERRUN (05 R177). `page 0x01` bit and INFO as R184 has them. -/
def frameFault (s0 : State) (code b info : Nat) : State :=
  let s := settleRows s0
  let s1 := logErr (s.rgSet (rk 0x01 0x078) (satInc (s.rg (rk 0x01 0x078)) 15 0)) 0x01 b info
  let s2 := haltCond (pmuEv (trace s1 0 1 code) 0x11 1) 0
  let halt := match s2.frm.haltAt with | some h => min h s2.now | none => s2.now
  let st := match s2.frm.state with
    | .running => if code = 2 then FState.idle else FState.resync
    | x => x
  let s3 := { s2 with frm := { s2.frm with
    state := st, haltAt := some halt, faulted := true, quietB := true, barriers := [], ingress := [],
    egress := s2.frm.egress.filter fun f => decide (f.sclk < s2.now) } }
  if code = 2 then dropActive s3 else s3

/-- Read the four 64-bit words of frame memory entry n of the active half: the lowest uncorrectable one, if any (05 R177; 13 R347). -/
def fmemRead (s : State) (n : Nat) : State × Option Nat :=
  (List.range 4).foldl (fun (a : State × Option Nat) w =>
    match sramRead a.1 16 0 (a.1.frm.activeHalf * 4096 + n * 4 + w) with
    | (s1, some true) => (s1, match a.2 with | some x => some x | none => some w)
    | (s1, _) => (s1, a.2)) (s, none)

/-- INFO of FMEM_UE for the pair of words `w` of entry n (notes/assumptions/24.md). -/
def infoFmem (s : State) (n w : Nat) : Nat := mkFld 9 0 n + mkFld 12 10 (2 * w) + mkFld 13 13 s.frm.activeHalf

/-- Read an entry, and the AUX entry it names, ahead of their use; none when a word was uncorrectable and the frame has faulted. -/
def fmemCheck (s : State) (n : Nat) : Option State × State :=
  let e := actEnts s n
  match fmemRead s n with
  | (s1, some w) => (none, frameFault s1 2 4 (infoFmem s1 n w))
  | (s1, none) =>
    if eKind e = 6 ∨ (eKind e = 5 ∧ eAction e = 4) then
      match fmemRead s1 (eAux e) with
      | (s2, some w) => (none, frameFault s2 2 4 (infoFmem s2 (eAux e) w))
      | (s2, none) => (some s2, s2)
    else (some s1, s1)

/-! ### Egress -/

/-- Context of an EGRESS entry. -/
def egrCtx (s : State) (n : Nat) : EgrCtx := smGetD s.dec.egr n ⟨0, 0, false, []⟩

/-- Replace it. -/
def setEgrCtx (s : State) (n : Nat) (c : EgrCtx) : State := { s with dec := { s.dec with egr := smPut s.dec.egr n c } }

/-- Record an event of R214 or R220 of a decode context: `id`, PULL, HALF, KIND, OFS32 and the stored line (07 R222, R223). -/
def decEvent (s : State) (id : Nat) (pull : Bool) (half kind ofs line : Nat) : State :=
  let src := mkFld 9 0 id + mkFld 10 10 (b2n pull) + mkFld 11 11 half
  let s1 := ((s.rgSet (rk 0x08 0x074) (BitVec.ofNat 32 (0x80000000 + src + mkFld 14 12 kind))).rgSet (rk 0x08 0x078)
    (BitVec.ofNat 32 (mkFld 20 0 ofs))).rgSet (rk 0x08 0x07C) (BitVec.ofNat 32 (mkFld 19 0 line))
  let s2 := if 1 ≤ kind ∧ kind ≤ 4 then s1.bump (rk 0x08 (0x050 + 4 * kind)) else s1
  if kind = 5 then s2 else if kind = 6 then logErr s2 0x08 4 src else logErr s2 0x08 (kind - 1) src

/-- Read words of the buffered line j of a context (07 R220): true when one is uncorrectable. -/
def ctxLineBad (s : State) (sub ctx j : Nat) (words : List Nat) : State × Bool :=
  words.foldl (fun (a : State × Bool) w =>
    match sramRead a.1 17 sub ((ctx * 65536 + j) * 16 + w) with
    | (s1, some true) => (s1, true)
    | (s1, _) => (s1, a.2)) (s, false)

/-- Counters of decoded granules (07 R222). -/
def decCounts (s : State) (nans ovfs spIn spDec : Nat) : State :=
  let s1 := ((s.bumpBy (rk 0x08 0x06C) nans).bumpBy (rk 0x08 0x070) ovfs).bumpBy (rk 0x08 0x064) spIn
  let s2 := madeSpores (s1.bumpBy (rk 0x08 0x068) spDec) spDec
  pmuEv s2 0x30 (spIn + spDec)

/-- The data sideband bits [47:0] of a flit (02 R33; 06 R189). -/
def flitSide (wide last sp0 sp1 : Bool) (tag k dst : Nat) : BitVec 48 :=
  BitVec.ofNat 48 (1 + mkFld 1 1 (b2n wide) + mkFld 2 2 (b2n last) + mkFld 3 3 (b2n sp0) + mkFld 4 4 (b2n sp1) + mkFld 23 8 tag
    + mkFld 35 24 k + mkFld 43 36 dst)

/-- Put a flit on the egress lanes two sclk after its presentation at sclk `at_`, unless a quench or a fault idles them (02 R36, R73). -/
def emitFlit (s : State) (at_ : Nat) (l : Line) (wide last : Bool) (tag k dst : Nat) : State :=
  let lanes := at_ + 2
  let quiet := match s.frm.stopAt with | some q => decide (q + 64 < lanes) | none => false
  if quiet || !unhalted s lanes then s
  else
    let side := flitSide wide last l.sp0 l.sp1 tag k dst
    let f := steerOut s lanes l.data ((bnetCrc side l.data) ++ side)
    pmuEv { s with frm := { s.frm with egress := s.frm.egress ++ [f] } } 0x13 1

/-- Stored lines of an egress context: those an uncorrectable word marked carry both spores (07 R220). -/
def egrStream (s : State) (n : Nat) (dropped : List Nat) (j : Nat) : Line :=
  let l := (heldLine s n j).getD ⟨0, true, true⟩
  if dropped.contains j then { l with sp0 := true, sp1 := true } else l

/-- Granules of a flit that are spored by an uncorrectable buffer word of the lines `ds` and by no stop of R214, as two numbers 0 or 1: `dec`
decodes the flit with just those lines spored (07 R220, R222). -/
def markedBy (f : FlitOut) (ds : List Nat) (dec : List Nat → FlitOut) : Nat × Nat :=
  if ds.isEmpty then (0, 0)
  else
    let g := (dec ds).line
    (b2n (g.sp0 && f.line.sp0 && decide (f.spDec < 2)), b2n (g.sp1 && f.line.sp1 && decide (f.spDec = 0)))

/-- Stored lines that flit k of an entry uses, as far as its context goes (07 R209, R212). -/
def egrUses (s : State) (e : Ent) (fmt : Nat) (c : EgrCtx) (st : Nat → Line) (avail : Nat → Bool) (k : Nat) : List Nat :=
  let lines := eLines e
  let rng := fun (a b : Nat) => ((List.range (b + 1 - a)).map (· + a)).filter fun j => decide (j < lines)
  let _ := s
  if isEpc fmt && eOut e != 0 then
    let b1 := (k * flitElems (eOut e) + flitElems (eOut e) - 1) / epcElems fmt
    match (epcBlocks fmt st lines avail (b1 + 1 - c.blk) c.pos).1.getLast? with
    | some b => rng (c.pos / 128) ((b.next - 1) / 128)
    | none => rng (c.pos / 128) (c.pos / 128)
  else rng (if k = 0 then 0 else lastLineOf fmt (eShape e) (eOut e) (k - 1)) (lastLineOf fmt (eShape e) (eOut e) k)

/-- Runs of stored bytes that flit k of an entry is decoded from, as far as its context goes (07 R219, R220). -/
def egrBytes (e : Ent) (fmt : Nat) (c : EgrCtx) (st : Nat → Line) (avail : Nat → Bool) (k : Nat) : List (Nat × Nat) :=
  if isEpc fmt && eOut e != 0 then
    let b1 := (k * flitElems (eOut e) + flitElems (eOut e) - 1) / epcElems fmt
    let bs := (epcBlocks fmt st (eLines e) avail (b1 + 1 - c.blk) c.pos).1
    [(c.pos, (match bs.getLast? with | some b => b.next | none => c.pos + 1) - c.pos)]
  else plainBytes fmt (eShape e) (eOut e) k

/-- The lowest line that the buffer of an egress context holds at its flit k: lines are held from their arrival until no later flit uses them
(07 R207, R220). -/
def egrLowest (e : Ent) (fmt : Nat) (c : EgrCtx) (k : Nat) : Nat :=
  if isEpc fmt && eOut e != 0 then c.pos / 128
  else if eOut e = 0 then k
  else min (eLines e - 1) ((plainBytes fmt (eShape e) (eOut e) k).foldl (fun m r => min m (r.1 / 128)) (eLines e - 1))

/-- Spores of a flit as numbers of granules that depend on lines with an uncorrectable buffer word. -/
def flitOf (s : State) (e : Ent) (fmt : Nat) (c : EgrCtx) (st : Nat → Line) (avail : Nat → Bool) (k : Nat) :
    FlitOut × EpcAt × Option EpcStop :=
  if isEpc fmt && eOut e != 0 then epcFlit fmt (eOut e) s.dec.satFp8 s.dec.satWide st (eLines e) avail ⟨c.blk, c.pos⟩ k 0
  else (plainFlit fmt (eShape e) (eOut e) s.dec.satFp8 s.dec.satWide st k 0, ⟨0, 0⟩, none)

/-- Stored lines an EPC context has consumed when it stands at a byte position; at the end its last line counts whole. -/
def epcConsumed (pos : Nat) (last : Bool) : Nat := if last then cdiv pos 128 else pos / 128

/-- Present flit k of an EGRESS entry at sclk `at_` (06 R186-R190; 07 R206, R207, R211-R220). -/
def presentFlit (s : State) (n k at_ : Nat) : State :=
  let e := actEnts s n
  let r := actRegion s (eRgn e)
  let fmt := r.fmt
  let epc := isEpc fmt && eOut e != 0
  let last := k + 1 == eBeats e
  let half := s.frm.activeHalf
  let c0 := egrCtx s n
  let p := eStart e + eLead e
  let s := s.bump (rk 0x08 0x088)
  let gone := fun (s : State) =>
    emitFlit (decCounts s 0 0 0 2) at_ deadFlit.line false last (eTag e) k (eDst e)
  if c0.ended then gone s
  else
    -- a line that arrives while the buffer holds 32 lines is dropped (R207)
    let full := if epc then (List.range (eLines e)).find? fun j =>
        decide (c0.pos / 128 + 32 ≤ j) && decide (egrReady r e j ≤ p + k + 5) else none
    match full with
    | some j => gone (setEgrCtx (decEvent s n false half 2 (4 * k) (eLine e + j)) n { c0 with ended := true })
    | none =>
      match sramRead s 17 2 n with
      | (s1, some true) =>
        gone (setEgrCtx (decEvent s1 n false half 6 (4 * k) (eLine e + egrLowest e fmt c0 k)) n { c0 with ended := true })
      | (s1, _) =>
        let avail := fun j => decide (egrReady r e j ≤ p + k)
        let use := (egrUses s1 e fmt c0 (egrStream s1 n c0.dropped) avail k).filter fun j => !c0.dropped.contains j
        let runs := egrBytes e fmt c0 (egrStream s1 n c0.dropped) avail k
        let (s2, newBad) := use.foldl (fun (a : State × List Nat) j =>
          match ctxLineBad a.1 0 n j (wordsOf runs j) with | (s', true) => (s', a.2 ++ [j]) | (s', false) => (s', a.2)) (s1, [])
        let c := { c0 with dropped := c0.dropped ++ newBad }
        let (f, a', stop) := flitOf s2 e fmt c (egrStream s2 n c.dropped) avail k
        -- granules that depend on a line of R220
        let only := fun (ds : List Nat) j => let l := egrStream s2 n [] j; { l with sp0 := ds.contains j, sp1 := ds.contains j }
        let dec := fun ds => (flitOf s2 e fmt c (only ds) avail k).1
        let d := markedBy f c.dropped dec
        let nDec := f.spDec + d.1 + d.2
        let nIn := f.spIn - (d.1 + d.2)
        let s3 := newBad.foldl (fun s j => decEvent s n false half 6 (4 * k + (if (markedBy f [j] dec).1 = 1 then 0 else 2)) (eLine e + j)) s2
        let s4 := match stop with
          | none => s3
          | some x =>
            let g := if f.line.sp0 && (x.kind == 1 || f.spDec == 2) then 0 else 2
            decEvent s3 n false half x.kind (4 * k + g) (eLine e + x.line)
        let s5 := if epc then
            (s4.bumpBy (rk 0x08 0x080) (a'.blk - c.blk)).bumpBy (rk 0x08 0x084)
              (epcConsumed a'.pos (last && stop.isNone) - epcConsumed c.pos false)
          else s4
        let s6 := setEgrCtx s5 n { c with blk := if epc then a'.blk else c.blk, pos := if epc then a'.pos else c.pos, ended := stop.isSome }
        emitFlit (decCounts s6 f.nans f.ovfs nIn nDec) at_ f.line false last (eTag e) k (eDst e)

/-- A read claim of an EGRESS: the line, or both copies once copy B is read, goes to the context's buffer (04 R138; 07 R206). -/
def egressRead (s : State) (n : Nat) (c : Claim) : State :=
  let e := actEnts s n
  let mirror := (actRegion s (eRgn e)).mirror
  let s := pmuEv s 0x20 1
  if c.op = 0 ∧ mirror then s
  else
    let (s1, l) := readCount (camRead s) (eLine e + c.k)
    sramWriteN (holdLine s1 n c.k l) 17 0 ((n * 65536 + c.k) * 16) 16

/-! ### Ingress -/

/-- The beat that an ingress frond consumes at sclk `at_`: what arrived, or the zero beat of R39; none once a quench has dropped what
would arrive (02 R37-R39, R73). -/
def takeBeat (s : State) (n k at_ : Nat) : State × Option Line :=
  if !unquenched s at_ then (s, none)
  else
    let e := actEnts s n
    let got := s.frm.ingress.find? fun f => f.entry == n && f.beat == k
    let s1 := pmuEv { s with frm := { s.frm with ingress := s.frm.ingress.filter fun f => !(f.entry == n && f.beat == k) } } 0x14 1
    match got with
    | some f => (s1, some f.line)
    | none =>
      (madeSpores (pmuEv (logErr s1 0x00 7 (mkFld 15 0 (eTag e) + mkFld 23 16 k)) 0x16 1) 2, some ⟨0, true, true⟩)

/-! ### Closes -/

/-- Elements that byte j of a block's body holds, for elements of w bits. -/
def bodyElems (w j : Nat) : List Nat := (List.range ((8 * j + 7) / w + 1 - 8 * j / w)).map (· + 8 * j / w)

/-- Poison of each output byte of a run of lanes (08 R243). -/
def closePoison (fmt action : Nat) (ps : List Bool) : List Bool :=
  let qs := if action = 2 then
      (List.range ps.length).map fun i => nth ps (i / 2 * 2) false || nth ps (i / 2 * 2 + 1) false else ps
  if isPlain fmt then qs.flatMap fun p => List.replicate (plainWidth fmt) p
  else
    let w := if fmt = 0x0D then 4 else mxBits fmt
    let hdr := if fmt = 0x0D then 2 else 1
    (List.range (qs.length / 32)).flatMap fun b =>
      let blk := (qs.drop (32 * b)).take 32
      List.replicate hdr (blk.any id) ++ (List.range (4 * w)).map fun j => (bodyElems w j).any fun q => nth blk q false

/-- Lanes, counted from the group's first, whose bytes lie in line L of a close: first lane, lanes, and the byte of the run at which
the line begins. -/
def closeRun (fmt lanes L : Nat) : Nat × Nat × Nat :=
  if isPlain fmt then
    let n := 128 / plainWidth fmt
    (L * n, min n (lanes - L * n), 0)
  else
    let ub := unitBytes fmt
    let b0 := L * 128 / ub
    let b1 := min ((L * 128 + 127) / ub + 1) (lanes / 32)
    (32 * b0, 32 * (b1 - b0), L * 128 - b0 * ub)

/-- Line L of a close with ACTION 1 or 2, and the granules that only a mismatch of R271 marked (08 R238-R243). -/
def closeLine (s : State) (e : Ent) (g : GroupSt) (L : Nat) : Line × Nat :=
  let fmt := eCloseFmt e
  let (l0, n, skip) := closeRun fmt g.lanes L
  let xs := (List.range n).map fun i => laneOf (laneImage s (g.lane + l0 + i))
  let bytes := ((closeBytesOf fmt s.acc.satFp8 s.acc.satWide (closeVals (eAction e) (eStatsOut e) g.wlsb xs)).drop skip).take 128
  let pois := xs.map (·.poison)
  let bad := (List.range n).map fun i => nth pois i false || s.acc.readBad.contains (g.lane + l0 + i)
  let fp := ((closePoison fmt (eAction e) pois).drop skip).take 128
  let fb := ((closePoison fmt (eAction e) bad).drop skip).take 128
  let sp := fun (f : List Bool) (h : Nat) => ((f.drop (64 * h)).take 64).any id
  ({ data := BitVec.ofNat 1024 ((bytes.zipIdx.map fun x => x.1 * 256 ^ x.2).foldl (· + ·) 0), sp0 := sp fb 0, sp1 := sp fb 1 },
    b2n (sp fb 0 && !sp fp 0) + b2n (sp fb 1 && !sp fp 1))

/-- Index under which an optimizer close holds the lines it will write. -/
def optHeld (m i : Nat) : Nat := 100000 + m * 16 + i

/-- Compute unit m of an optimizer close and hold its lines (10 R271, R290-R292, R295). -/
def optCompute (s : State) (n m : Nat) (g : GroupSt) : State :=
  let e := actEnts s n
  let aux := actEnts s (eAux e)
  let wf := (actRegion s (fld aux 85 80)).fmt
  let u := optU wf
  let grp := eRgn e
  let c := optCtx s aux wf
  let lanes := (List.range u).map fun q => g.lane + m * u + q
  let (s1, xs) := lanes.foldl (fun (a : State × List (Lane × Bool)) l =>
    let p := laneBank a.1 l
    let (s', bad) := engCheck a.1 (physOf a.1 p) p 3
    (s', a.2 ++ [(laneOf (laneImage s' l), bad || s'.acc.readBad.contains l)])) (s, [])
  let old := (List.range (optLines aux wf m).length).map fun i => (heldLine s1 n (m * 16 + i)).getD Line.zero
  let wline := nth (optLines aux wf m) 0 0
  let r := optUnit c g.wlsb wline xs old
  let clean := optUnit c g.wlsb wline (xs.map fun x => (x.1, false)) old
  let fresh := ((r.lines.zip clean.lines).map fun x => b2n (x.1.sp0 && !x.2.sp0) + b2n (x.1.sp1 && !x.2.sp1)).foldl (· + ·) 0
  let s2 := madeSpores (s1.bumpBy (rk 0x06 0x0AC) r.elems.length) fresh
  let s3 := (lanes.zip r.elems).foldl (fun s x => match x.2.skip with
    | some w => logErr (s.bump (rk 0x06 0x0B0)) 0x06 3 (mkFld 5 0 grp + mkFld 19 6 x.1 + mkFld 20 20 w)
    | none => s) s2
  r.lines.zipIdx.foldl (fun s l => holdLine s n (optHeld m l.2) l.1) s3

/-! ### Claims -/

/-- Beat k of a FORWARD with DIR = 0 (08 R244). -/
def forwardBeat (s : State) (n k at_ : Nat) : State :=
  let e := actEnts s n
  let lanes := (List.range 8).map fun q => eLane e + 8 * k + q
  let img := fun l => let x := laneOf (laneImage s l); laneBits { x with poison := x.poison || s.acc.readBad.contains l }
  let pz := fun l => (laneOf (img l)).poison
  let fresh := fun (h : Nat) => let ls := (lanes.drop (4 * h)).take 4
    b2n (ls.any pz && !(ls.any fun l => (laneOf (laneImage s l)).poison))
  let data := lanes.zipIdx.foldl (fun (a : LineBits) x => a ||| (((img x.1).setWidth 1024 : LineBits) <<< (128 * x.2))) 0
  let l : Line := ⟨data, (lanes.take 4).any pz, (lanes.drop 4).any pz⟩
  emitFlit (madeSpores s (fresh 0 + fresh 1)) at_ l true (k + 1 == eBeats e) (eTag e) k (eDst e)

/-- Addend of a preload: element i of the preload lines (08 R228). -/
def preloadAddend (s : State) (n i : Nat) : Addend :=
  let e := actEnts s n
  let w := inWidth (ePreFmt e)
  let stats := eStats e == 1
  let el := if stats then i / 2 else i
  let st := fun j => (heldLine s n j).getD ⟨0, true, true⟩
  elemAddend (inFp (ePreFmt e)) (strWord st (el * w) w) (strAnySpore st (el * w) w) (stats && i % 2 == 1)

/-- The read of a line by a preload or an optimizer step: scheduled, counted and held. -/
def claimRead (s : State) (n idx line : Nat) : State :=
  let (s1, l) := readCount (camRead (pmuEv s 0x20 1)) line
  holdLine s1 n idx l

/-- A frond write that takes a slot between the read and the write of a fill or rebuild step of the line cancels the step's write (14 R381,
R387). -/
def dropSteps (s : State) (line : Nat) : State :=
  { s with thl := { s.thl with flights := s.thl.flights.filter fun f =>
    !(f.line == line && f.sample.isSome && (match f.kind with | .fillStep _ _ => true | .rebuild => true | _ => false)) } }

/-- A scheduled full-line write (04 R122). -/
def claimWrite (s : State) (line : Nat) (l : Line) : State := writeLine (dropSteps (camRead (pmuEv s 0x20 1)) line) line l 0

/-- Execute one claim of entry n at its sclk. -/
def frondClaim (s : State) (n : Nat) (c : Claim) : State :=
  let e := actEnts s n
  let at_ := frameAt s c.t
  let g := eRgn e
  match eKind e with
  | 0x1 => if c.cls = 0 then egressRead s n c else presentFlit s n c.k at_
  | 0x2 =>
    if c.cls = 0 then
      match takeBeat s n c.k at_ with
      | (s1, some l) => claimWrite s1 c.what l
      | (s1, none) => s1
    else s
  | 0x3 =>
    if c.cls = 2 then
      match takeBeat s n c.k at_ with
      | (s1, some l) => holdLine s1 n c.k l
      | (s1, none) => s1
    else
      match heldLine s n c.k, getGroup s g with
      | some l, some x =>
        let w := inWidth (eIn e)
        let raw := strWord (fun _ => l) (c.i * w) w
        addLane s g c.what x.wlsb (elemAddend (inFp (eIn e)) raw (strAnySpore (fun _ => l) (c.i * w) w) (x.stats && (c.what - eLane e) % 2 == 1))
      | _, _ => s
  | 0x4 =>
    if c.cls = 0 then claimRead s n c.k c.what
    else if c.op = 1 then addInto s g c.what (eWlsb e) 0 (preloadAddend s n c.k)
    else lanePut s c.what 0
  | 0x5 =>
    match getGroup s g with
    | none => s
    | some x =>
      if c.cls = 3 then laneOut s g c.what
      else if eAction e = 4 then
        if c.op = 0 then claimRead s n (c.k * 16 + c.i) c.what
        else
          let s1 := if c.i = 0 then optCompute s n c.k x else s
          claimWrite s1 c.what ((heldLine s1 n (optHeld c.k c.i)).getD Line.zero)
      else
        let (l, fresh) := closeLine s e x (c.what - eCloseLine e)
        claimWrite (madeSpores s fresh) c.what l
  | 0x6 =>
    if eDir e = 1 then
      if c.cls = 2 then
        match takeBeat s n c.k at_ with
        | (s1, some l) => holdLine s1 n c.k l
        | (s1, none) => s1
      else
        match heldLine s n c.k, getGroup s g with
        | some l, some x => addLane s g c.what x.wlsb (wideAddend (l.data.extractLsb' (128 * c.i) 128) (if c.i < 4 then l.sp0 else l.sp1))
        | _, _ => s
    else if c.cls = 3 then laneOut (groupClosing s g) g c.what
    else forwardBeat s n c.k at_
  | _ => s

/-! ### Starts -/

/-- START of the first entry after n that takes group g out of OPEN: its CLOSE_GROUP, or its FORWARD with DIR = 0 (08 R226). -/
def leavesAt (ents : Ents) (count n g : Nat) : Nat :=
  ((List.range (count + 1)).filter fun j =>
    decide (n < j) && eRgn (ents j) == g && (eKind (ents j) == 5 || (eKind (ents j) == 6 && eDir (ents j) == 0))).foldl
      (fun m j => min m (eStart (ents j))) 0x1FFFF

/-- Send an `EVT` of the slice to a destination (type, number, chip), its TXN the lowest free of 0x30-0x3F. With all of them in use the
`EVT` that has waited longest for its answer is given up (02 R54, R67; DESIGN CHOICE, notes/assumptions/7.md). -/
def sendEvt (s : State) (dest : Nat × Nat × Nat) (code at_ : Nat) : State :=
  let free := ((List.range 16).map (· + 0x30)).find? fun x => !(s.fab.evts.any fun e => e.txn == x)
  let (txn, open_) := match free, s.fab.evts with
    | some x, es => (x, es)
    | none, e :: es => (e.txn, es)
    | none, [] => (0x30, [])
  send { s with fab := { s.fab with evts := open_ ++ [⟨txn, dest, at_⟩] } }
    { vc := 0, head := mkHead 0x39 0 (mkFld 6 5 1) txn (own s) dest 0 (code % 65536), payload := [], readyAt := at_, pull := none }

/-- The effects of an entry at its START. -/
def frondStart (s : State) (n : Nat) : State :=
  let e := actEnts s n
  let g := eRgn e
  let now := frameAt s (eStart e)
  match eKind e with
  | 0x1 => setEgrCtx (sramWrite s 17 2 n) n ⟨0, 0, false, []⟩
  | 0x4 =>
    let stop := leavesAt (actEnts s) (hdrCount (actEnts s 0)) n g
    setGroup (s.rgFld (kGrp g) 2 2 (b2n (eStats e == 1))) g
      { st := 1, lane := eLane e, lanes := eLines e, wlsb := eWlsb e, stats := eStats e == 1, entry := n, closeAt := frameAt s stop - 1 }
  | 0x5 => if eAction e = 0 ∨ eAction e = 3 then groupClosed s g else groupClosing s g
  | 0x7 => (List.range 10).foldl (fun s i => if (fld e 73 64).testBit i then wakeTier s i true false else s) s
  | 0x8 =>
    (List.range 10).foldl (fun s i =>
      if (fld e 73 64).testBit i && !(planPending s).testBit i && !(i == 9 && t9Needed s) then sleepTierReq s i false else s) s
  | 0x9 =>
    let s1 := sendSnet s 2 (fld e 75 64) now
    if fld e 112 96 = 0 then s1
    else { s1 with frm := { s1.frm with barriers := s1.frm.barriers ++ [(n, fld e 75 64, now + fld e 112 96)] } }
  | 0xA =>
    let id := fld e 71 64
    let s1 := s.rgSet (rk 0x01 0x074) (BitVec.ofNat 32 (0x80000000 + id + mkFld 23 8 s.frm.frameNo))
    let s2 := if bit e 72 then sendEvt s1 (0, fld e 91 82, s1.straps.chip) (0xF000 + id) (now + 1) else s1
    let s3 := evtPulse (trace s2 0 2 id) 0x0B id
    if s3.rf (rk 0x10 0x048) 15 8 = id then haltCond s3 3 else s3
  | _ => s

/-- What the last claim of an entry brings: a group becomes OPEN or CLOSED, a step slot is marked to advance. -/
def frondEnd (s : State) (n : Nat) : State :=
  let e := actEnts s n
  let g := eRgn e
  match eKind e with
  | 0x4 => match getGroup s g with
    | some x => if x.entry = n ∧ x.st = 1 then setGroup s g { x with st := 2 } else s
    | none => s
  | 0x5 =>
    if eAction e = 0 ∨ eAction e = 3 then s
    else
      let s1 := groupClosed s g
      let aux := actEnts s (eAux e)
      if eAction e = 4 ∧ bit aux 70 = true ∧ !s1.upd.advance.contains (fld aux 75 72) then
        { s1 with upd := { s1.upd with advance := s1.upd.advance ++ [fld aux 75 72] } }
      else s1
  | _ => s

/-- Execute the claims of entry n that are due, from the k-th on. -/
def frondClaims (s : State) (n k : Nat) : State :=
  let all := claimsOf (penvOf s) (actEnts s) n
  let due := (all.drop k).takeWhile fun c => decide (frameAt s c.t ≤ s.now) && unhalted s (frameAt s c.t)
  let s1 := due.foldl (fun s c => if failed s then s else frondClaim s n c) s
  if failed s1 then s1
  else
    let s2 := { s1 with frm := { s1.frm with progress := smPut s1.frm.progress n (k + due.length) } }
    if k + due.length = all.length ∧ (k < all.length ∨ all = []) then frondEnd s2 n else s2

/-- Entry n is one of the program's: entries above COUNT are ignored (05 R146). -/
def inProgram (s : State) (n : Nat) : Bool := decide (1 ≤ n) && decide (n ≤ hdrCount (actEnts s 0))

/-- Run entry n up to the current sclk: its start when it is due, then its claims (05 R170-R180). -/
def runFrond (s : State) (n : Nat) : State :=
  let e := actEnts s n
  let at_ := frameAt s (eStart e)
  if !s.frm.runs || failed s || !inProgram s n then s
  else
    match smGet s.frm.progress n with
    | some k => if k < (claimsRaw (penvOf s) (actEnts s) n).length then frondClaims s n k else s
    | none =>
      if at_ ≤ s.now ∧ unhalted s at_ = true ∧ unquenched s at_ = true then
        match fmemCheck s n with
        | (none, s1) => s1
        | (some s1, _) =>
          frondClaims (frondStart (pmuEv { s1 with frm := { s1.frm with progress := smPut s1.frm.progress n 0 } } 0x12 1) n) n 0
      else s

end Sys2Proof.Machine
end

