-- ==== Sys2Proof/Machine/Commits.lean ====
section
/-!
DEFINITION. Commits of the region table, the engine map and the sparing copies; row fills and the states of a rebuild
(03_addressing_regions.md R100-R106; 10_update_engines.md R272-R274; 14_sparing_rebuild.md R377-R391).
-/

namespace Sys2Proof.Machine

/-! ### Region table -/

/-- Fault of entry n of a shadow copy in the order of R102, 0 for none. An entry is held against the lower ones only, so of two that overlap
the higher refuses the commit (DESIGN CHOICE, notes/assumptions/50.md). -/
def rgnEntryFault (lvl : Nat) (shd : Nat → Region) (n : Nat) : Nat :=
  let r := shd n
  if !r.valid then 0
  else if r.limit < r.base then 1
  else if (List.range n).any fun m =>
      let q := shd m
      q.valid && decide (q.base ≤ q.limit) && decide (q.base ≤ r.top) && decide (r.base ≤ q.top) then 2
  else if r.mirror ∧ 0x7FFF < r.top then 3
  else if r.mode = 3 ∨ 0x10 < r.fmt then 4
  else if r.mode = 1 ∧ r.fmt ≠ 0 then 5
  else if r.fmt ≠ 0 ∧ lvl = 1 then 6
  else 0

/-- The program a half holds: the active one, or a PENDING one in the other half. -/
def heldProg (s : State) (half : Nat) : Option ProgInfo := if half = s.frm.activeHalf then s.frm.active else s.frm.pend

/-- Entries that a commit armed now checks (R101). -/
def heldEntries (s : State) : List (Nat × Nat) :=
  let of_ := fun half => match heldProg s half with
    | some _ => (List.range (hdrCount (entryOf s.frm.mem half 0))).map fun i => (half, i + 1)
    | none => []
  of_ s.frm.activeHalf ++ of_ (1 - s.frm.activeHalf)

/-- Fault of a held entry under the shadow copy: the region it names, or 0x3F (R102 code 7). -/
def rgnFrondFault (s : State) (half i : Nat) : Option Nat :=
  match heldProg s half with
  | none => none
  | some p =>
    let ents := entryOf s.frm.mem half
    match (rgnUses (shdRegion s) ents (hdrCount (ents 0)) i).find? (useFault (level s) p.secure (shdRegion s)) with
    | some u => some (if (shdRegion s u.n).valid then u.n else 0x3F)
    | none => none

/-- Record a refused region commit (R102). -/
def rgnFail (s : State) (code idx frond half : Nat) : State :=
  let k := rk 0x02 0x044
  logErr (s.rgSet k (setFld (setFld (setFld (s.rg k) 3 3 1) 7 4 code) 13 8 idx)) 0x02 6
    (mkFld 3 0 code + mkFld 9 4 idx + mkFld 19 10 frond + mkFld 20 20 half)

/-- No commit is armed any longer. -/
def rgnDisarm (s : State) : State :=
  { s with rgn := { s.rgn with pending := false, checking := false, heldEnts := [], checked := 0, fault := none, cancelAt := none } }

/-- COHERENT ranges of the active copy. -/
def cohRanges (s : State) : List (Nat × Nat) :=
  (List.range 64).filterMap fun n => let r := actRegion s n; if r.valid && r.mode == 1 then some (r.base, r.limit) else none

/-- The words of a shadow copy become the active copy, and DONE is set (R101, R103). -/
def rgnApply (s : State) (words : List Word) : State :=
  let coh := cohRanges s
  let s1 := words.zipIdx.foldl (fun s w => s.rgSet (rk 0x02 (0x300 + 4 * w.2)) w.1) (ctrlScan s 1 64 64)
  let s2 := sramWriteN s1 18 1 0 64
  let s3 := s2.rgFld (rk 0x02 0x044) 2 2 1
  { s3 with rgn := { s3.rgn with wasCoh := s3.rgn.wasCoh ++ coh.filter fun c => !s3.rgn.wasCoh.contains c } }

/-- The words of the shadow copy. -/
def shdWords (s : State) : List Word := (List.range 128).map fun i => s.rg (rk 0x02 (0x100 + 4 * i))

/-- Entries and held entries that the armed check goes through (R101). -/
def rgnChecks (s : State) : Nat := 64 + s.rgn.heldEnts.length

/-- What the j-th check of an armed commit finds: code, index, frond and half (R102). -/
def rgnCheckAt (s : State) (j : Nat) : Option (Nat × Nat × Nat × Nat) :=
  if j < 64 then (match rgnEntryFault (level s) (shdRegion s) j with | 0 => none | c => some (c, j, 0, 0))
  else match s.rgn.heldEnts[j - 64]? with
    | some (half, i) => (rgnFrondFault s half i).map fun r => (7, r, i, half)
    | none => none

/-- The checks of an armed commit whose sclk has come by sclk x: entry n in sclk a + n, then the held entries (R101, R102). -/
def rgnCheckTo (s : State) (x : Nat) : State :=
  if !s.rgn.checking || s.rgn.fault.isSome then s
  else
    let n := min (rgnChecks s) (x + 1 - s.rgn.armedAt)
    let done := s.rgn.checked
    if n ≤ done then s
    else
      let s0 := ctrlScan s 1 (64 + done) (n - done)
      match (List.range (n - done)).findSome? fun i => (rgnCheckAt s0 (done + i)).map fun f => (s.rgn.armedAt + done + i + 1, f) with
      | some f => { s0 with rgn := { s0.rgn with fault := some f } }
      | none => { s0 with rgn := { s0.rgn with checked := n } }

/-- The sclk in which CHECKING clears when every check passes (R101). -/
def rgnCheckedAt (s : State) : Nat := s.rgn.armedAt + s.rgn.heldEnts.length + 68

/-- End the armed check when its sclk has come (R101, R102), and the commit when a CANCEL's has passed (R104). -/
def rgnCheckEnd (s00 : State) : State :=
  let x := match s00.rgn.cancelAt with | some c => min c s00.now | none => s00.now
  let s := rgnCheckTo s00 x
  let s1 :=
    if !s.rgn.checking then s
    else match s.rgn.fault with
      | some (e, c, i, f, h) => if e ≤ x then rgnFail (rgnDisarm s) c i f h else s
      | none => if rgnChecks s ≤ s.rgn.checked ∧ rgnCheckedAt s ≤ x then { s with rgn := { s.rgn with checking := false } } else s
  match s1.rgn.cancelAt with
  | some c => if c < s1.now then rgnDisarm s1 else s1
  | none => s1

/-- A passed commit takes effect at the frame sclk 0 of this TICK (R101). A CANCEL of this very sclk comes too late (R104). -/
def rgnTick (s : State) (frame : Nat) : State :=
  let s1 := rgnCheckEnd s
  if s1.rgn.pending && !s1.rgn.checking && decide (rgnCheckedAt s1 < s1.now) then
    rgnDisarm ((rgnApply s1 (shdWords s1)).rgFld (rk 0x02 0x044) 31 16 frame)
  else s1

/-- Region n of the words that a NOW commit holds. -/
def RgnNow.region (w : RgnNow) (n : Nat) : Region := mkRegion (nth w.words (2 * n) 0) (nth w.words (2 * n + 1) 0)

/-- The checks of a NOW commit whose sclk has come: entry n in the n-th sclk from its write (R103; notes/assumptions/50.md). -/
def rgnNowTo (s : State) (w : RgnNow) : RgnNow :=
  let n := min 64 (s.now + 1 - w.start)
  if w.fault.isSome || decide (n ≤ w.checked) then w
  else match (List.range (n - w.checked)).findSome? fun i =>
      match rgnEntryFault (level s) w.region (w.checked + i) with
      | 0 => none
      | c => some (w.start + w.checked + i + 1, c, w.checked + i) with
    | some f => { w with fault := some f }
    | none => { w with checked := n }

/-- One NOW commit moves on: it is refused, takes effect 63 sclk after its write, or stays under way (R103). -/
def rgnNowOne (s : State) (w0 : RgnNow) : State :=
  let w := rgnNowTo s w0
  let keep := { s with rgn := { s.rgn with nows := s.rgn.nows ++ [w] } }
  match w.fault with
  | some (e, c, i) => if e ≤ s.now then rgnFail s c i 0 0 else keep
  | none => if w.start + 63 ≤ s.now then rgnApply s w.words else keep

/-- Commits without a tick move on, and an armed check that has come to its end (R101, R103). -/
def rgnNowStep (s : State) : State :=
  let s1 := if s.rgn.pending then rgnCheckEnd s else s
  s1.rgn.nows.foldl rgnNowOne { s1 with rgn := { s1.rgn with nows := [] } }

/-! ### Engine map -/

/-- Position of the first fault of the shadow map, and the engine it names (10 R272). -/
def mapFault (s : State) : Option (Nat × Nat) :=
  let nb := nBanks s.straps.build
  let eng := fun p => s.rf (rk 0x06 (0x050 + 4 * (p / 6))) (5 * (p % 6) + 4) (5 * (p % 6))
  ((List.range nb).find? fun p =>
    decide (nEngines s.straps.build ≤ eng p) || s.rb (rk 0x06 0x068) (eng p) || (List.range p).any fun q => eng q == eng p).map
      fun p => (p, eng p)

/-- Record a refused map. -/
def mapRefuse (s : State) (pos eng : Nat) : State :=
  let k := rk 0x06 0x048
  logErr (s.rgSet k (setFld (setFld (s.rg k) 3 3 1) 7 4 pos)) 0x06 2 (mkFld 3 0 pos + mkFld 8 4 eng)

/-- Words of the shadow map. -/
def mapWords (s : State) : List Word := (List.range 3).map fun i => s.rg (rk 0x06 (0x050 + 4 * i))

/-- The words of a shadow map become active (10 R274). -/
def mapApply (s : State) (words : List Word) : State :=
  let s1 := words.zipIdx.foldl (fun s w => s.rgSet (rk 0x06 (0x05C + 4 * w.2)) w.1) s
  s1.rgFld (rk 0x06 0x048) 2 2 1

/-- No map is pending any longer. -/
def mapDisarm (s : State) : State := { s with upd := { s.upd with mapAt := none, mapCancel := none } }

/-- A pending map takes effect at the frame sclk 0 of this TICK (10 R272). A CANCEL of this very sclk comes too late. -/
def mapTick (s : State) : State :=
  match s.upd.mapAt with
  | some w => if w + 4 ≤ s.now then mapDisarm (mapApply s (mapWords s)) else s
  | none => s

/-- Map commits without a tick take effect, each with the words it checked (10 R273), and a CANCEL whose sclk has passed (10 R272). -/
def mapNowStep (s : State) : State :=
  let due := s.upd.mapNows.filter fun m => decide (m.1 ≤ s.now)
  let s1 := due.foldl (fun s m => mapApply s m.2) { s with upd := { s.upd with mapNows := s.upd.mapNows.filter fun m => decide (s.now < m.1) } }
  match s1.upd.mapCancel with
  | some c => if c < s1.now then mapDisarm s1 else s1
  | none => s1

/-! ### Sparing -/

/-- Shadow CAM word. -/
def camShd (s : State) (t n : Nat) : Word := smGetD s.spr.camShd (t * 64 + n) 0
/-- Active CAM word. -/
def camAct (s : State) (t n : Nat) : Word := smGetD s.spr.camAct (t * 64 + n) 0

/-- The tier serves a position (14 R379, R381). T9 serves one from START until the rebuild is IDLE again (14 R386, R388;
notes/assumptions/39.md). -/
def servesPos (s : State) (t : Nat) : Bool := if t = 9 then !(s.spr.rebuild == .idle) && !tierFailed s 9 else !tierFailed s t

/-- Fault of entry n of tier t among shadow CAM words, 0 for none (14 R379). A row fill still running refuses the entry that is checked while
it runs (DESIGN CHOICE, notes/assumptions/51.md). -/
def camFault (s : State) (cams : List (Nat × Word)) (t n : Nat) : Nat :=
  let shd := fun m => smGetD cams (t * 64 + m) 0
  let w := shd n
  let (v, b, r, sp) := camEntry w
  let a := camAct s t n
  let lower := (List.range n).map fun m => camEntry (shd m)
  if v && lower.any (fun x => x.1 && x.2.1 == b && x.2.2.1 == r) then 1
  else if v && lower.any (fun x => x.1 && x.2.1 == b && x.2.2.2 == sp) then 2
  else if bit a 31 && a != w then 3
  else if v && !bit a 31 && servesPos s t && !(lacking s).isEmpty then 4
  else if !s.spr.fills.isEmpty then 5
  else 0

/-- Lane entry i of lane map words: 0-7 ingress, 8-15 egress; valid and lane. -/
def laneEntry (lanes : List (Nat × Word)) (i : Nat) : Bool × Nat :=
  let w := smGetD lanes (i % 8) 0
  if i < 8 then (bit w 15, fld w 10 0) else (bit w 31, fld w 26 16)

/-- Fault of a lane entry, 0 for none. -/
def laneFault (lanes : List (Nat × Word)) (i : Nat) : Nat :=
  let (v, l) := laneEntry lanes i
  if !v then 0
  else if 1087 < l then 6
  else if (List.range i).any fun j => decide (i / 8 = j / 8) && (laneEntry lanes j == (true, l)) then 7
  else 0

/-- What check k of a sparing commit finds: code, tier, index and direction (14 R378, R379). -/
def sprFault (s : State) (c : SprChk) (k : Nat) : Option (Nat × Nat × Nat × Nat) :=
  if k < 640 then (match camFault s c.cams (k / 64) (k % 64) with | 0 => none | x => some (x, k / 64, k % 64, 0))
  else match laneFault c.lanes (k - 640) with | 0 => none | x => some (x, 0xF, k % 8, (k - 640) / 8)

/-- The checks of a sparing commit whose sclk has come by sclk x, one an sclk from its write on (14 R378). -/
def sprChkTo (s : State) (x : Nat) (c : SprChk) : SprChk :=
  let n := min 656 (x + 1 - c.start)
  if c.fault.isSome || decide (n ≤ c.checked) then c
  else match (List.range (n - c.checked)).findSome? fun i => (sprFault s c (c.checked + i)).map fun f => (c.start + c.checked + i + 1, f) with
    | some f => { c with fault := some f }
    | none => { c with checked := n }

/-- Every sparing check under way goes on to sclk x. -/
def sprCheckTo (s : State) (x : Nat) : State :=
  if s.spr.armed.isNone && s.spr.nows.isEmpty then s
  else { s with spr := { s.spr with armed := s.spr.armed.map (sprChkTo s x), nows := s.spr.nows.map (sprChkTo s x) } }

/-- Record a refused sparing commit. -/
def sprFail (s : State) (f : Nat × Nat × Nat × Nat) : State :=
  let k := rk 0x0A 0x048
  let (c, t, i, d) := f
  let w := setFld (setFld (setFld (setFld (setFld (s.rg k) 3 3 1) 6 4 c) 11 8 t) 17 12 i) 18 18 d
  logErr (s.rgSet k w) 0x0A 0 (mkFld 2 0 c + mkFld 6 3 t + mkFld 12 7 i + mkFld 13 13 d)

/-- No sparing commit is armed any longer. -/
def sprDisarm (s : State) : State :=
  { s with spr := { s.spr with pending := false, checking := false, armed := none, cancelAt := none } }

/-- A new CAM entry becomes active: its stripe row is pending, and a record of the row is cleared (14 R381, R392). -/
def camGain (s : State) (t n : Nat) : State :=
  let (_, b, r, _) := camEntry (camAct s t n)
  let k := rk 0x0A (0x06C + 4 * t)
  let bl := s.rg k
  let s1 := if bit bl 31 && fld bl 13 10 == b && fld bl 9 0 == r && !bit bl 14 then s.rgFld k 31 31 0 else s
  if servesPos s1 t then { s1 with spr := { s1.spr with fills := s1.spr.fills ++ [(t, n, List.range 64)] } } else s1

/-- The copies a commit checked become active (14 R378). -/
def sprApply (s0 : State) (c : SprChk) : State :=
  let s := ctrlScan s0 2 640 640
  let new := (c.cams.filter fun e => bit e.2 31 && !bit (camAct s (e.1 / 64) (e.1 % 64)) 31).map (·.1)
  let s1 := sramWriteN { s with spr := { s.spr with
    camAct := c.cams, laneAct := c.lanes, laneSw := if s.spr.laneAct = c.lanes then s.spr.laneSw else some s.now } } 18 2 0 640
  (new.foldl (fun s k => camGain s (k / 64) (k % 64)) s1).rgFld (rk 0x0A 0x048) 2 2 1

/-- End the armed check when its sclk has come, and the commit when a CANCEL's has passed (14 R378-R380). -/
def sprCheckEnd (s00 : State) : State :=
  let x := match s00.spr.cancelAt with | some c => min c s00.now | none => s00.now
  let s := sprCheckTo s00 x
  let s1 := match s.spr.armed with
    | some c =>
      if !s.spr.checking then s
      else match c.fault with
        | some (e, f) => if e ≤ x then sprFail (sprDisarm s) f else s
        | none => if c.start + 656 ≤ x then { s with spr := { s.spr with checking := false, checkedAt := c.start + 656 } } else s
    | none => s
  match s1.spr.cancelAt with
  | some c => if c < s1.now then sprDisarm s1 else s1
  | none => s1

/-- A passed commit takes effect at the frame sclk 0 of this TICK (14 R378). A CANCEL of this very sclk comes too late (14 R380). -/
def sprTick (s : State) : State :=
  let s1 := sprCheckEnd s
  match s1.spr.armed with
  | some c => if s1.spr.pending && !s1.spr.checking && decide (s1.spr.checkedAt + 4 ≤ s1.now) then sprDisarm (sprApply s1 c) else s1
  | none => s1

/-- One NOW commit moves on: it is refused, takes effect 657 sclk after its write, or stays under way (14 R380). -/
def sprNowOne (s : State) (c : SprChk) : State :=
  let keep := { s with spr := { s.spr with nows := s.spr.nows ++ [c] } }
  match c.fault with
  | some (e, f) => if e ≤ s.now then sprFail s f else keep
  | none => if c.start + 657 ≤ s.now then sprApply s c else keep

/-- Sparing commits without a tick move on, and an armed check that has come to its end (14 R378, R380). -/
def sprNowStep (s : State) : State :=
  let s1 := if s.spr.pending then sprCheckEnd s else s
  let s2 := sprCheckTo s1 s1.now
  s2.spr.nows.foldl sprNowOne { s2 with spr := { s2.spr with nows := [] } }

/-- Pending lines in the order of their fill steps: tier, CAM entry, LINE (14 R381). -/
def pendingLines (s : State) : List (Nat × Nat × Nat) :=
  s.spr.fills.flatMap fun (t, n, cs) => let (_, b, r, _) := camEntry (camAct s t n); cs.map fun c => (t, n, mkLine r b c)

/-- The line of the next fill step: the next pending one that is not in a step (14 R381; 17 R453). -/
def nextFill (s : State) : Option (Nat × Nat × Nat) :=
  (pendingLines s).find? fun x =>
    !s.thl.flights.any fun f => (match f.kind with | .fillStep _ _ => true | _ => false) && f.line == x.2.2

/-- SPR.FILL_STATUS (14 R393). -/
def fillStatus (s : State) : Word :=
  match s.spr.fills with
  | (t, n, cs) :: _ =>
    BitVec.ofNat 32 (1 + mkFld 4 1 t + mkFld 10 5 n + mkFld 16 11 (cs.headD 0) + mkFld 26 17 s.spr.fills.length)
  | [] => 0

/-! ### Rebuild -/

/-- Code of a rebuild state (14 R389). -/
def rebuildCode : RebuildSt → Nat | .idle => 0 | .waking => 1 | .running => 2 | .paused => 3 | .done => 4

/-- START is accepted (14 R386). -/
def rebuildMay (s : State) (p : Nat) : Bool :=
  s.spr.rebuild == .idle && decide (p ≤ 8) && posLacks s p && !tierFailed s 9 && !s.spr.serves && s.spr.fills.isEmpty

/-- Start a rebuild of position p. -/
def rebuildGo (s : State) (p : Nat) : State :=
  let s1 := (s.rgSet (rk 0x0A 0x060) 0)
  let s2 : State := { s1 with spr := { s1.spr with rebuild := .waking, pos := p, front := 0, serves := false } }
  if (tier s2 9).st = .awake then { s2 with spr := { s2.spr with rebuild := .running } } else wakeTier s2 9 true false

/-- PAUSE, RESUME and ABORT (14 R389). -/
def rebuildPauseOp (s : State) : State :=
  if s.spr.rebuild = .running then { s with spr := { s.spr with rebuild := .paused } } else s
/-- RESUME. -/
def rebuildResumeOp (s : State) : State :=
  if s.spr.rebuild = .paused then { s with spr := { s.spr with rebuild := .running } } else s
/-- ABORT. -/
def rebuildAbortOp (s : State) : State :=
  if s.spr.rebuild = .waking ∨ s.spr.rebuild = .running ∨ s.spr.rebuild = .paused then pruneQueue (rebuildIdle s) else s

/-- The write of a rebuild step took its slot: the front advances (14 R388, R389). -/
def rebuildAdvance (s : State) : State :=
  let f := s.spr.front + 1
  if 1048576 ≤ f then
    logErr { s with spr := { s.spr with front := 1048576, rebuild := .done, serves := true } } 0x0A 3 (mkFld 3 0 s.spr.pos)
  else { s with spr := { s.spr with front := f } }

end Sys2Proof.Machine
end

