-- ==== Sys2Proof/Machine/Frame.lean ====
section
/-!
DEFINITION. Frame memory loads and the validator's end, ticks, frame starts, quench, barriers, frame parameters and B-net input
(02_fabric_interface.md R37-R41, R72-R74; 04_thallus.md R128-R131; 05_frames_and_fronds.md R145-R182; 14_sparing_rebuild.md R385).
-/

namespace Sys2Proof.Machine

/-! ### Loading (05 R167-R171) -/

/-- The half other than the active one. -/
def otherHalf (s : State) : Nat := 1 - s.frm.activeHalf

/-- Zero the other half and take it to a state; a PENDING program in it is discarded with its wakes (R167). -/
def clearOther (s : State) (st : HalfSt) : State :=
  let s1 := sramWriteN (s.rgFld (rk 0x01 0x084) 25 16 0) 16 0 (otherHalf s * 4096) 4096
  pruneQueue { s1 with frm := { s1.frm with
    inact := st, pend := none, wakeWait := false, valAt := none
    mem := s1.frm.mem.filter fun e => !(e.1 / 8192 == otherHalf s1) } }

/-- Both halves become EMPTY (R6, R181). -/
def discardBoth (s : State) : State :=
  let s1 := clearOther (dropActive s) .empty
  { s1 with frm := { s1.frm with copy := none } }

/-- LOAD_CTL.OPEN: true when accepted. -/
def loadOpenOp (s : State) : State × Bool :=
  if s.frm.inact = .validating then (s, false)
  else ((clearOther s .opened |> fun s1 => (s1.rgSet (rk 0x01 0x05C) 0).rgFld (rk 0x01 0x064) 31 31 0), true)

/-- LOAD_CTL.VALIDATE: true when accepted; `secure` is the S attribute of the write. -/
def loadValidateOp (s : State) (secure : Bool) : State × Bool :=
  if s.frm.inact = .opened then ({ s with frm := { s.frm with inact := .validating, valAt := some (s.now, secure), valSeq := s.rb (rk 0x01 0x040) 1 } }, true)
  else (s, false)

/-- LOAD_CTL.ABORT. -/
def loadAbortOp (s : State) : State :=
  if s.frm.inact = .opened ∨ s.frm.inact = .validating then
    let s1 := clearOther s .empty
    { s1 with frm := { s1.frm with copy := none } }
  else s

/-- A `LOAD_DATA` write: its response code. -/
def loadWriteOp (s : State) (d : Word) : State × Nat :=
  let k := rk 0x01 0x05C
  let p := s.rf k 13 0
  if s.frm.inact = .validating then (s, nackBusy)
  else if s.frm.inact = .opened ∧ p < 8192 then
    let s1 := sramWrite { s with frm := { s.frm with mem := smSet s.frm.mem (otherHalf s * 8192 + p) d 0 } } 16 0 (otherHalf s * 4096 + p / 2)
    (s1.rgSet k (BitVec.ofNat 32 (p + 1)), ok)
  else (s, nackFrame)

/-- A `LOAD_DATA` read (R168). With LOAD_PTR at 8,192, past the last word, it returns 0 and leaves the pointer there: the spec names no word and no
bound (DESIGN CHOICE, notes/assumptions/49.md). -/
def loadReadOp (s : State) : State × Word :=
  let k := rk 0x01 0x05C
  let p := s.rf k 13 0
  let act := s.rb (rk 0x01 0x058) 3
  let half := if act then s.frm.activeHalf else otherHalf s
  let empty := if act then s.frm.active.isNone else s.frm.inact == .empty
  let s1 := s.rgSet k (BitVec.ofNat 32 (min (p + 1) 8192))
  if empty || decide (8192 ≤ p) then (s1, 0)
  else
    let (s2, bad) := plainRead s1 16 0 (half * 4096 + p / 2)
    let w := smGetD s2.frm.mem (half * 8192 + p) 0
    (s2, if p % 2 = 0 then asRead bad w else w)

/-- What the validator sees (R106, R159-R166). -/
def venvOf (s : State) (secure : Bool) : VEnv :=
  { build := s.straps.build, chip := s.straps.chip, tile := s.straps.tile, per := period s, rr := reserveReg s
    share := s.rf (rk 0x01 0x050) 5 0, cap := s.rf (rk 0x01 0x054) 9 0, lvl := level s, seqCheck := s.frm.valSeq
    loaded := if s.frm.loadedV then some (s.rf (rk 0x01 0x06C) 15 0) else none
    secure := secure, act := actRegion s, shd := if s.rgn.pending then some (shdRegion s) else none, eng := engOn s }

/-- The validator reads the words of the program: a corrected word is counted, and an uncorrectable one is logged and taken as read, as in a
read-back (13 R347, R373; DESIGN CHOICE, notes/assumptions/62.md). Answers the words it has read. -/
def validatorRead (s : State) : State × List (Nat × Word) :=
  let lo := otherHalf s * 4096
  let n := 4 * (hdrCount (entryOf s.frm.mem (otherHalf s) 0) + 1)
  (s.ras.upsets.filter fun x => x.1 == 16 && x.2.1 == 0 && decide (lo ≤ x.2.2.1) && decide (x.2.2.1 < lo + n)).foldl
    (fun (a : State × List (Nat × Word)) x =>
      match plainRead a.1 16 0 x.2.2.1 with
      | (s1, true) => (s1, smSet a.2 (2 * x.2.2.1) (smGetD a.2 (2 * x.2.2.1) 0 ^^^ 3) 0)
      | (s1, false) => (s1, a.2)) (s, s.frm.mem)

/-- A validation ends when its time has passed (R166, R169). -/
def validationEndOp (s0 : State) : State :=
  let (s, mem) := validatorRead s0
  match s.frm.valAt with
  | none => s0
  | some (v, sec) =>
    let ents := entryOf mem (otherHalf s)
    let r := validate (venvOf s sec) ents
    if s.now < v + r.sclk then s0
    else
      let h := ents 0
      let s1 := (s.rgSet (rk 0x01 0x064) (BitVec.ofNat 32 (0x80000000 + r.code + mkFld 17 8 r.idx))).rgSet (rk 0x01 0x068)
        (BitVec.ofNat 32 (mkFld 23 0 r.sclk))
      let s2 := pmuEv (trace { s1 with frm := { s1.frm with valAt := none } } 0 4 (r.code + mkFld 17 8 r.idx)) 0x17 1
      if r.code ≠ 0 then
        let s3 := pmuEv (logErr s2 0x01 0 (mkFld 7 0 r.code + mkFld 17 8 r.idx + mkFld 18 18 (otherHalf s2))) 0x18 1
        clearOther s3 .empty
      else
        let s3 := (s2.rgFld (rk 0x01 0x06C) 15 0 (hdrSeq h)).rgFld (rk 0x01 0x084) 25 16 (hdrPlan h)
        { s3 with frm := { s3.frm with
          loadedV := true, inact := .pending
          pend := some { secure := sec, firstClaim := r.first, accesses := r.a, acceptedAt := v + r.sclk } } }

/-! ### Frame parameters (05 R181, R182) -/

/-- A write of TICK_PERIOD, UNSCHED_MIN or ENERGY_CAP whose value has passed its range (R181). -/
def paramWrite (s : State) (key : Nat) (hi : Nat) (v : Nat) : State × Nat :=
  if key = rk 0x01 0x048 ∧ v < reserveReg s then (s, nackRsvd)
  else if s.rf key hi 0 = v then (s, ok)
  else if !(s.frm.state == .idle || s.frm.state == .stopped) || s.frm.inact == .validating then (s, nackBusy)
  else (discardBoth (s.rgFld key hi 0 v), ok)

/-- The held program allows the reserve (R182). -/
def reserveFits (s : State) (rr : Nat) (p : ProgInfo) : Bool :=
  let u := 2 * period s * s.rf (rk 0x01 0x050) 5 0 / 64
  decide (rr / 2 ≤ p.firstClaim) && decide (p.accesses + 128 + rr + u ≤ 2 * period s)

/-- A write of REFRESH_RESERVE whose value is a nonzero multiple of 192 (R182). -/
def reserveWrite (s : State) (v : Nat) : State × Nat :=
  if period s < v then (s, nackRsvd)
  else if s.frm.inact = .validating then (s, nackBusy)
  else if (s.frm.active.toList ++ s.frm.pend.toList).all (reserveFits s v) then
    (s.rgFld (rk 0x01 0x04C) 15 0 v, ok)
  else (s, nackFrame)

/-- A write of SAT_FP8 and SAT_WIDE takes effect at once unless the engine is RUNNING (07 R218; 08 R252). -/
def satNow (s : State) : Bool := !(s.frm.state == .running)

/-- Apply the written SAT values of page DEC (07 R218). -/
def applySatDec (s : State) : State :=
  { s with dec := { s.dec with satFp8 := s.rb (rk 0x08 0x040) 0, satWide := s.rb (rk 0x08 0x040) 1 } }

/-- Apply the written SAT values of page ACC (08 R252). -/
def applySatAcc (s : State) : State :=
  { s with acc := { s.acc with satFp8 := s.rb (rk 0x07 0x040) 0, satWide := s.rb (rk 0x07 0x040) 1 } }

/-- Apply the written SAT values of pages DEC and ACC. -/
def applySat (s : State) : State := applySatAcc (applySatDec s)

/-! ### Frame starts -/

/-- Everything the running frame still owes before sclk `upTo`: sclk and entry, in order. -/
def owed (s : State) (upTo : Nat) : List (Nat × Nat) :=
  let ents := actEnts s
  let v := penvOf s
  let evs := (List.range (hdrCount (ents 0))).flatMap fun i =>
    let n := i + 1
    if !isTimed (ents n) then []
    else
      let cs := claimsOf v ents n
      match smGet s.frm.progress n with
      | some k => (cs.drop k).map fun c => (frameAt s c.t, n)
      | none => (frameAt s (eStart (ents n)), n) :: cs.map fun c => (frameAt s c.t, n)
  sortBy (fun a b => decide (a.1 ≤ b.1)) (evs.filter fun e => decide (e.1 < upTo))

/-- Frond events that no command has reached happen, each at its sclk (notes/assumptions/20.md). -/
def catchUp (s : State) (upTo : Nat) : State :=
  if !s.frm.runs then s
  else
    let s1 := (owed s upTo).foldl (fun s e => runFrond { s with now := e.1 } e.2) s
    { s1 with now := s.now }

/-- A BARRIER's release has not arrived in time (05 R177, R179). -/
def barrierFault (s : State) (b : Nat × Nat × Nat) : State :=
  let s1 := frameFault s 1 2 (mkFld 11 0 b.2.1 + mkFld 21 12 b.1)
  { s1 with frm := { s1.frm with tickRef := none } }

/-- Bring the frame that ends to its end: barriers whose time is over fault first, at their sclk. -/
def endFrame (s : State) : State :=
  match sortBy (fun (a b : Nat × Nat × Nat) => decide (a.2.2 ≤ b.2.2)) (s.frm.barriers.filter fun b => decide (b.2.2 < s.now)) with
  | b :: _ =>
    let s1 := catchUp s (b.2.2 + 1)
    if s1.frm.barriers.contains b then { (barrierFault { s1 with now := b.2.2 } b) with now := s.now } else catchUp s1 s.now
  | [] => catchUp s s.now

/-- Frame sclk 0 of every frame, ticked or self-timed, at the current sclk: the counts of the frame start anew (R182; 01 R25; 04 R120;
13 R359; 14 R387). -/
def frameBoundary (s : State) (selfT : Bool) : State :=
  let kc := rk 0x09 0x080
  let lap := (s.rg kc).toNat
  let lim := (s.rg (rk 0x09 0x084)).toNat
  let s1 := s.rgSet kc (BitVec.ofNat 32 (min (lap + 1) 0xFFFFFFFF))
  let s2 := if lim ≠ 0 ∧ lim ≤ lap + 1 ∧ !s.ras.slowLogged then
      logErr { s1 with ras := { s1.ras with slowLogged := true } } 0x09 5 (mkFld 19 0 (s1.rf (rk 0x09 0x078) 19 0))
    else s1
  let kr := rk 0x0A 0x060
  let s3 := if s2.spr.rebuild = .waking ∨ s2.spr.rebuild = .running then s2.rgSet kr (satInc (s2.rg kr) 31 0) else s2
  { s3 with
    frm := { s3.frm with
      frame0 := some s3.now, selfTimed := selfT, runs := false, charged := 0, haltAt := none, stopAt := none, unsched := 0, progress := []
      barriers := [], egress := [], ingress := [], held := [], reserveNow := reserveReg s3 }
    dec := { s3.dec with egr := [] }
    acc := { s3.acc with readBad := [] }
    ras := { s3.ras with scrubs := 0 }
    spr := { s3.spr with steps := 0 }
    thl := { s3.thl with
      openRows := [], rounds := 0
      initLost := match s3.thl.initAt with
        | some a => s3.thl.initLost + closedSclk s3 (max a (s3.frm.frame0.getD a))
        | none => s3.thl.initLost
      taken := s3.thl.taken.filter fun x => decide (s3.now ≤ x.last) } }

/-- A PENDING program could become active here but for its tier plan (R170, R173). -/
def wouldSwitch (s : State) : Bool :=
  match s.frm.pend with
  | some p => decide (p.acceptedAt + 4 ≤ s.now) && s.rb (rk 0x01 0x040) 0 && s.thl.initAt.isNone && !s.thl.initDue
  | none => false

/-- Tiers of the pending plan that have not failed and are not awake. -/
def planMissing (s : State) : List Nat :=
  (List.range 10).filter fun n => (planPending s).testBit n && !tierFailed s n && (tier s n).st != .awake

/-- The pending program becomes active (R170). -/
def switchProgram (s : State) : State :=
  match s.frm.pend with
  | none => s
  | some p =>
    let h := otherHalf s
    let hd := entryOf s.frm.mem h 0
    let s1 := dropActive s
    let s2 := ((s1.rgSet (rk 0x01 0x080) (BitVec.ofNat 32 (hdrProgId hd))).rgSet (rk 0x01 0x07C) (BitVec.ofNat 32 (mkFld 16 0 p.firstClaim))).rgSet
      (rk 0x01 0x084) (BitVec.ofNat 32 (mkFld 9 0 (hdrPlan hd)))
    { s2 with frm := { s2.frm with activeHalf := h, active := some p, pend := none, inact := .empty, wakeWait := false } }

/-- Run a frame of the active program from the current sclk (R172, R177, R178; 10 R289). -/
def startFrame (s : State) (frame : Nat) (switched : Bool) : State :=
  let s1 := slotsAtFrame (applySat (abandonGroups s))
  let seq := hdrSeq (actEnts s1 0)
  let s2 := (s1.rgFld (rk 0x01 0x06C) 31 16 seq).rgFld (rk 0x01 0x070) 15 0 frame
  let s3 := pmuEv (trace { s2 with frm := { s2.frm with
    execV := true, state := .running, runs := true, faulted := false, quietB := false
    charged := match s2.frm.active with | some p => p.accesses | none => 0 } } 0 0 (seq + mkFld 16 16 (b2n switched))) 0x10 1
  match fmemRead s3 0 with
  | (s4, some w) => frameFault s4 2 4 (infoFmem s4 0 w)
  | (s4, none) => s4

/-- The frame of a TICK after a fault does not run: it counts in SKIPPED (R177). A frame is what a TICK starts (01 R24), so a self-timed one
does not count. -/
def skipFrame (s : State) : State :=
  if s.frm.faulted then s.rgSet (rk 0x01 0x070) (satInc (s.rg (rk 0x01 0x070)) 31 16) else s

/-- Ask for the wakes that a switch waits for (R173). -/
def askWakes (s : State) (ms : List Nat) : State :=
  ms.foldl (fun s n => wakeTier s n false false) { s with frm := { s.frm with wakeWait := true } }

/-- The engine halts at this tick (18 R475). -/
def haltHere (s : State) (frame : Nat) : State :=
  let s1 : State := { s with obs := { s.obs with halted := true, haltPend := false, stepping := false, haltFrame := frame } }
  let s2 : State := { s1 with frm := { s1.frm with state := if s1.frm.active.isSome then .stopped else .idle } }
  trace (logErr s2 0x10 2 (mkFld 15 0 frame)) 5 2 0

/-- What an on-time TICK does to the frame engine at frame sclk 0 (R176). -/
def onTimeTick (s : State) (frame : Nat) : State :=
  let run := s.rb (rk 0x01 0x040) 0
  if s.frm.state = .failed then s
  else if quenched s || s.obs.halted then skipFrame s
  else
    let sw := wouldSwitch s
    let miss := if sw then planMissing s else []
    let can := sw && miss.isEmpty
    let runs := can || (run && s.frm.active.isSome && s.frm.state != .idle)
    if runs && s.obs.haltPend && !s.obs.stepping then haltHere s frame
    else
      let s1 := if sw && !miss.isEmpty then askWakes s miss else s
      let s2 := { s1 with obs := { s1.obs with stepping := false } }
      if can then startFrame (switchProgram s2) frame true
      else if runs then startFrame s2 frame false
      else
        let st := match s1.frm.state with
          | .running => FState.stopped
          | .resync => if s1.frm.active.isSome then FState.stopped else .idle
          | .quenched => if s1.frm.active.isSome then FState.stopped else .idle
          | x => x
        skipFrame { s1 with frm := { s1.frm with state := st } }

/-- A TICK_LOST (R72, R176): the next frame number is expected. In IDLE and STOPPED it stops nothing, but B-net flits are dropped unlogged
from here on as after any frame fault (02 R38). -/
def tickMissed (s : State) : State :=
  let info := mkFld 15 0 (s.frm.frameNo + 1)
  let idle := fun (s : State) =>
    let s1 := haltCond (pmuEv (trace (logErr (s.rgSet (rk 0x01 0x078) (satInc (s.rg (rk 0x01 0x078)) 15 0)) 0x01 1 info) 0 1 0) 0x11 1) 0
    { s1 with frm := { s1.frm with quietB := true } }
  match s.frm.state with
  | .failed => s
  | .idle => idle s
  | .stopped => idle s
  | _ =>
    let s1 := frameFault s 0 1 info
    { s1 with frm := { s1.frm with state := .resync } }

/-- A frame sclk 0 that is within the window of the reference (R72). -/
def tickOnTime (s : State) (f0 : Nat) : Bool :=
  match s.frm.tickRef with
  | some r => decide (r + period s ≤ f0 + 2) && decide (f0 ≤ r + period s + 2)
  | none => false

/-- An accepted TICK at its frame sclk 0, the current sclk (R72, R101, R130, R170-R178). -/
def tickOp (s : State) (frame : Nat) : State :=
  let s0 := endFrame s
  let onTime := tickOnTime s0 s0.now
  let s1 := if s0.frm.tickRef.isSome && !onTime then tickMissed s0 else s0
  let s2 := frameBoundary s1 false
  let s3 : State := { s2 with frm := { s2.frm with frameNo := frame, tickRef := some s2.now } }
  let s4 := evtPulse (sprTick (mapTick (rgnTick s3 frame))) 0x02 0
  if failed s4 then s4 else if onTime then onTimeTick s4 frame else skipFrame s4

/-- No TICK has arrived by the end of the window (R72). -/
def tickLostOp (s : State) : State :=
  match s.frm.tickRef with
  | some r =>
    if r + period s + 2 < s.now then
      let s1 := tickMissed (endFrame s)
      { s1 with frm := { s1.frm with tickRef := none } }
    else s
  | none => s

/-- The controller times a frame start itself when a period has passed and no tick is due (04 R130). -/
def selfFrameOp (s : State) : State :=
  match s.frm.frame0 with
  | some f =>
    if s.frm.tickRef.isNone && decide (f + period s ≤ s.now) then
      let s1 := frameBoundary (endFrame s) true
      { s1 with frm := { s1.frm with frame0 := some (f + period s) } }
    else s
  | none => s

/-! ### Quench (02 R73, R74) -/

/-- Beat 1 of an accepted QUENCH at the current sclk, q. What the fronds do up to q happens first; a quench that stopped the frame before, and
has been released since, keeps it stopped. B-net flits are dropped from q, at whose input the message stands, to the sclk of the release's
beat 1, exclusive (DESIGN CHOICE, notes/assumptions/48.md). -/
def quenchOp (s0 : State) : State :=
  if quenched s0 then s0
  else
    let s := catchUp s0 (s0.now + 1)
    let st := match s.frm.state with | .running => FState.quenched | .resync => FState.quenched | x => x
    let stop := match s.frm.stopAt with | some q => min q s.now | none => s.now
    { s with
      fab := { s.fab with quench := some s.now, quenchAt := s.now }
      frm := { s.frm with state := st, stopAt := some stop, ingress := []
                          egress := s.frm.egress.filter fun f => decide (f.sclk ≤ s.now + 64) } }

/-- Beat 1 of a release at the current sclk. -/
def quenchReleaseOp (s : State) : State :=
  if quenched s then
    { s with fab := { s.fab with quench := none, release := s.now } }
  else s

/-! ### Barriers (05 R179) -/

/-- Beat 1 of a BAR_RELEASE at the current sclk. -/
def barReleaseOp (s : State) (id : Nat) : State :=
  match s.frm.barriers.find? fun b => b.2.1 == id && decide (s.now ≤ b.2.2) && decide (frameAt s (eStart (actEnts s b.1)) < s.now) with
  | some b => trace { s with frm := { s.frm with barriers := s.frm.barriers.filter fun x => x != b } } 0 3 id
  | none => logErr s 0x01 3 (mkFld 11 0 id)

/-- The wait of a BARRIER ends without its release. -/
def barTimeoutOp (s : State) (entry : Nat) : State :=
  match s.frm.barriers.find? fun b => b.1 == entry with
  | some b =>
    if b.2.2 < s.now then
      let s1 := catchUp s (b.2.2 + 1)
      if s1.frm.barriers.contains b then barrierFault s1 b else s1
    else s
  | none => s

/-! ### B-net input (02 R37-R41; 14 R384, R385) -/

/-- The ingress entry and beat that a flit matches at the current sclk (R37). -/
def matchFlit (s : State) (tag beat : Nat) (wide : Bool) : Option (Nat × Nat) :=
  let ents := actEnts s
  if !s.frm.runs then none
  else
    (List.range (hdrCount (ents 0))).findSome? fun i =>
      let n := i + 1
      let e := ents n
      let ing := eKind e == 2 || eKind e == 3 || (eKind e == 6 && eDir e == 1)
      if !ing || eTag e != tag || (wide != (eKind e == 6)) then none
      else
        (List.range (eBeats e)).findSome? fun k =>
          let c := frameAt s (eStart e + k * ePace e)
          if k % 4096 = beat ∧ c ≤ s.now + 24 ∧ s.now + 2 ≤ c ∧ unquenched s (frameAt s (eStart e)) = true ∧
              !(s.frm.ingress.any fun f => f.entry == n && f.beat == k) then some (n, k)
          else none

/-- INFO of the B-net records (02 R76). -/
def infoBnet (side : BitVec 64) : Nat := mkFld 15 0 (fld side 23 8) + mkFld 23 16 (fld side 35 24)

/-- A flit on the input lanes at the current sclk. -/
def bFlitOp (s : State) (f0 : BFlit) : State :=
  let d := steerIn s f0
  let f : BFlit := { f0 with data := d.1, side := d.2 }
  if !logicRuns s || failed s then s
  else if !bit f.side 0 then
    match idleOnes d with
    | [] => s
    | lane :: _ =>
      let k := rk 0x0A 0x068
      let w := s.rg k
      let s1 := if bit w 31 then (if getLane d (fld w 10 0) && fld w 10 0 != 1024 then s.rgSet k (satInc w 23 16) else s)
        else s.rgSet k (BitVec.ofNat 32 (0x80000000 + mkFld 10 0 lane + mkFld 23 16 1))
      logErr s1 0x0A 4 (mkFld 10 0 lane)
  else if quenched s || s.frm.quietB then s
  else if injArmed s 10 then feedBucket (logErr (s.rgFld kInj 7 7 0) 0x00 5 0) 10 1
  else if fld f.side 63 48 ≠ (bnetCrc (f.side.extractLsb' 0 48) f.data).toNat then feedBucket (logErr s 0x00 5 0) 10 1
  else if fld f.side 7 5 ≠ 0 ∨ fld f.side 47 44 ≠ 0 then
    let b := if fld f.side 7 5 ≠ 0 then 5 + ((lowestBit 3 (fld f.side 7 5)).getD 0) else 44 + ((lowestBit 4 (fld f.side 47 44)).getD 0)
    logErr s 0x00 2 (mkFld 14 7 b + 2 ^ 15)
  else
    match matchFlit s (fld f.side 23 8) (fld f.side 35 24) (bit f.side 1) with
    | some (n, k) =>
      { s with frm := { s.frm with ingress := s.frm.ingress ++ [⟨n, k, ⟨f.data, bit f.side 3, bit f.side 4⟩⟩] } }
    | none => pmuEv (logErr s 0x00 6 (infoBnet f.side)) 0x15 1

end Sys2Proof.Machine
end

