-- ==== Sys2Proof/Machine/Streams.lean ====
section
/-!
DEFINITION. Open pulls, aborts and pushes (06_streams.md R194-R203; 07_weight_decode.md R204-R221).
-/

namespace Sys2Proof.Machine

/-- LINES of an `ST_PULL` (R194). -/
def pLines (h : BitVec 256) : Nat := hParam h % 2 ^ 16
/-- TILES. -/
def pTiles (h : BitVec 256) : Nat := (hParam h / 2 ^ 16) % 2 ^ 10
/-- SHAPE. -/
def pShape (h : BitVec 256) : Nat := (hParam h / 2 ^ 26) % 8
/-- OUT_FMT. -/
def pOut (h : BitVec 256) : Nat := (hParam h / 2 ^ 29) % 8
/-- START_ROW. -/
def pStart (h : BitVec 256) : Nat := (hParam h / 2 ^ 32) % 2 ^ 16
/-- ABORT_TXN. -/
def pAbortTxn (h : BitVec 256) : Nat := (hParam h / 2 ^ 48) % 256
/-- ABORT. -/
def pAbort (h : BitVec 256) : Bool := (hParam h).testBit 56

/-- Rows of the stream. -/
def pullRows (out shape tiles lines : Nat) : Nat := if out = 0 then lines else tiles * shapeRows shape
/-- Output bytes of a row. -/
def rowBytes (out shape : Nat) : Nat := if out = 0 then 128 else shapeCols shape * outWidth out
/-- Output flits of 32 bytes of the whole stream. -/
def pullFlits (out shape tiles lines : Nat) : Nat := pullRows out shape tiles lines * rowBytes out shape / 32

/-- Checks of stage 10 after step g (R195). -/
def pullCheck (s : State) (h : BitVec 256) : Option Nack :=
  if pAbort h then none
  else
    let fmt := match regionAt s (hOffset h / 4096) with | some r => r.fmt | none => 0
    let bad := fun b => some (⟨nackRsvd, some (0, 2, infoRsv h b), 7⟩ : Nack)
    let size := storedLines fmt (pShape h) (pTiles h)
    if pullRows (pOut h) (pShape h) (pTiles h) (pLines h) ≤ pStart h then bad 192
    else if pOut h = 0 then none
    else if fmt = 0 then bad 189
    else if (if isEpc fmt then decide (size < pLines h) else size != pLines h) then bad 160
    else none

/-- Stored line in which the first byte of START_ROW lies (R187, R221). -/
def pullFirst (fmt out shape row : Nat) : Nat :=
  if out = 0 then row
  else
    let t := row / shapeRows shape
    let r := row % shapeRows shape
    let base := t * tileStored fmt shape
    let c := shapeCols shape
    if isPlain fmt then (base + r * c * plainWidth fmt) / 128
    else if isEpc fmt then 0
    else if fmt = 0x0C then (base + r * (c + 2)) / 128
    else (base + r * c / 32 * unitBytes fmt) / 128

/-- First stored line that unit k of 128 output bytes uses. -/
def unitFirst (fmt out shape k : Nat) : Nat :=
  if out = 0 then k
  else
    let i := k * flitElems out
    if isPlain fmt then i * plainWidth fmt / 128
    else if fmt = 0x0C then i / shapeCols shape * (shapeCols shape + 2) / 128
    else i / 32 * unitBytes fmt / 128

/-- Pulls open (R195). -/
def pullsOpen (s : State) : Nat := s.dec.pulls.length

/-- The pull in a context. -/
def getPull (s : State) (c : Nat) : Option PullCtx := smGet s.dec.pulls c
/-- Replace it. -/
def setPull (s : State) (c : Nat) (p : PullCtx) : State := { s with dec := { s.dec with pulls := smPut s.dec.pulls c p } }
/-- The pull decodes EPC blocks. -/
def PullCtx.epc (p : PullCtx) : Bool := isEpc p.fmt && p.out != 0

/-- Position of the first byte from `pos` on that is no pad byte of a buffered line. -/
def padEnd (p : PullCtx) : Nat → Nat → Nat
  | 0, pos => pos
  | fuel + 1, pos =>
    match p.buf.find? fun b => b.1 == pos / 128 with
    | some (j, l, _) =>
      if byteOf l.data (pos % 128) = 255 ∧ sporeOf l (pos % 128) = false ∧ p.dropped.contains j = false then padEnd p fuel (pos + 1) else pos
    | none => pos

/-- With its buffer full, an EPC pull consumes the pad bytes it stands at: the lines they fill leave the buffer (07 R207, R212). -/
def eatPads (s : State) (c : Nat) (p : PullCtx) : State × PullCtx :=
  if !p.epc || p.ended || decide (p.buf.length < 32) then (s, p)
  else
    let pos := padEnd p 4096 p.pos
    let p1 := { p with pos := pos, buf := p.buf.filter fun b => decide (pos / 128 ≤ b.1) }
    (setPull (s.bumpBy (rk 0x08 0x084) (epcConsumed pos false - epcConsumed p.pos false)) c p1, p1)

/-- Queue the next line read of a pull that needs one (R196; 07 R204). -/
def pullWant (s0 : State) (c : Nat) : State :=
  match (getPull s0 c).map (eatPads s0 c) with
  | some (s, p) =>
    if p.reading || p.ended || decide (p.lines ≤ p.nextLine) || decide (32 ≤ p.buf.length) then s
    else
      queueBurst (setPull s c { p with reading := true }) 4 (.pull c) (p.line + p.nextLine) (reqRegion s p.slot) true false
  | none => s0

/-- Accept a pull: it takes the lowest free context (R196, R204). -/
def openPull (s : State) (slot : Nat) (h : BitVec 256) : State :=
  let c := ((List.range 8).find? fun c => (getPull s c).isNone).getD 0
  let fmt := match reqRegion s slot with | some r => r.fmt | none => 0
  let first := pullFirst fmt (pOut h) (pShape h) (pStart h)
  let flit := pStart h * rowBytes (pOut h) (pShape h) / 32
  let epc := isEpc fmt && pOut h != 0
  let p : PullCtx :=
    { slot := slot, line := hOffset h / 128, lines := pLines h, tiles := pTiles h, shape := pShape h, out := pOut h, startRow := pStart h
      fmt := fmt, satFp8 := s.dec.satFp8, satWide := s.dec.satWide, nextLine := first, reading := false, buf := []
      unit := if epc then 0 else flit / 4, blk := 0, pos := 0, ended := false, dropped := [], sent := flit, poison := false }
  pullWant (sramWrite (setPull (setPhase s slot .pull) c p) 17 3 c) c

/-- END_ROW: the first row not wholly sent (R198). -/
def endRow (p : PullCtx) : Nat := max p.startRow (p.sent * 32 / rowBytes p.out p.shape)

/-- Complete a pull with one `RSP_COMP` at sclk `at_` and free its context (R198). -/
def endPull (s : State) (c code : Nat) (aborted : Bool) (at_ : Nat) : State :=
  match getPull s c with
  | none => s
  | some p =>
    let s1 : State := { s with
      dec := { s.dec with pulls := smDel s.dec.pulls c }
      arb := { s.arb with queue := s.arb.queue.filter fun b => b.kind != .pull c }
      thl := { s.thl with flights := s.thl.flights.filter fun f => f.kind != .pull c }
      fab := { s.fab with out := s.fab.out.filter fun o => o.pull != some c } }
    finish s1 p.slot code (mkFld 15 0 (endRow p) + mkFld 16 16 (b2n aborted)) at_

/-- The context of the open pull that an abort request names (R199). -/
def abortNames (s : State) (h : BitVec 256) : Option Nat :=
  (s.dec.pulls.find? fun e => match getReq s e.2.slot with
    | some r => hTuple r.head == (hSrcChip h, hSrcType h, hSrcId h, pAbortTxn h)
    | none => false).map (·.1)

/-- The sclk from which a pull that is aborted now completes: the packet on the lanes is finished first (R199). -/
def abortSclk (s : State) : Nat := max (s.now + 1) s.fab.laneFree

/-- An abort request (R199): the pull it names completes, then the abort is answered. -/
def abortPull (s : State) (slot : Nat) (h : BitVec 256) : State :=
  match abortNames s h with
  | some c => finish (endPull s c ok true (abortSclk s)) slot ok 0 (abortSclk s)
  | none => finish s slot ok 0 (s.now + 1)

/-- An abort request that finds the request table full (R195, R199). -/
def abortAt (s : State) (h : BitVec 256) (vc : Nat) : State :=
  match abortNames s h with
  | some c => answerOpen (endPull s c ok true (abortSclk s)) h vc ok 0 (abortSclk s)
  | none => answerOpen s h vc ok 0 (s.now + 1)

/-- Lines of a pull that have not been read and are not being read. -/
def pullUnread (s : State) (c : Nat) (p : PullCtx) : Nat :=
  p.lines - p.nextLine - b2n (p.reading && !(s.arb.queue.any fun b => b.kind == .pull c))

/-- A tier the pull reads goes to sleep: it ends before its next line read (R203). -/
def pullSleep (s : State) : State :=
  s.dec.pulls.foldl (fun s e => if 0 < pullUnread s e.1 e.2 ∧ !e.2.ended then endPull s e.1 nackPwr false (s.now + 1) else s) s

/-- A `ST_PUSH` that has no grant yet when a tier it needs goes to sleep is answered `NACK_PWR` (R203). -/
def pushSleep (s : State) : State :=
  let gone := s.arb.queue.filterMap fun b => match b.kind with | .push k => some k | _ => none
  gone.foldl (fun s k => finish { s with arb := { s.arb with queue := s.arb.queue.filter fun b => b.kind != .push k } } k nackPwr 0 (s.now + 1)) s

/-- A line read of a pull is at the controller output (07 R206). -/
def pullLine (s : State) (c outAt : Nat) (l : Line) : State :=
  match getPull s c with
  | none => s
  | some p =>
    let j := p.nextLine
    let s1 := sramWriteN (setPull s c { p with reading := false, nextLine := j + 1, buf := p.buf ++ [(j, l, outAt + 6)] }) 17 1 ((c * 65536 + j) * 16) 16
    pullWant s1 c

/-- Stored lines of a pull's stream as buffered. -/
def pullStream (p : PullCtx) (dropped : List Nat) (j : Nat) : Line :=
  match p.buf.find? fun b => b.1 == j with
  | some (_, l, _) => if dropped.contains j then { l with sp0 := true, sp1 := true } else l
  | none => Line.zero

/-- Elements of a pull's stream before START_ROW (R196). -/
def pullSkip (p : PullCtx) : Nat := if p.out = 0 then 0 else p.startRow * shapeCols p.shape

/-- Send the decoded unit of a pull as a `DAT_STREAM` packet, from the pull's next flit on (R196, R197). -/
def sendUnit (s : State) (c : Nat) (p : PullCtx) (l : Line) : State :=
  match getReq s p.slot with
  | none => s
  | some r =>
    let total := pullFlits p.out p.shape p.tiles p.lines
    let flits := (lineFlits l).drop (p.sent % 4)
    let poison := flits.any (·.spore)
    let last := p.unit * 4 + 4 == total
    let hd := mkHead 0x58 (if poison then okPoison else ok) (fld r.head 21 12) (hTxn r.head) (own s) (hSrc r.head) (hAddr r.head)
      (mkFld 20 0 p.sent + mkFld 21 21 (b2n last))
    send (setPull s c { p with unit := p.unit + 1, poison := p.poison || poison })
      { vc := 3, head := hd, payload := flits, readyAt := s.now + 1, pull := some c }

/-- The stored lines that the next unit of a pull is decoded from, and whether one of them is not decodable yet (07 R206, R212). -/
def pullNeed (s : State) (p : PullCtx) : List Nat × Bool :=
  let k := p.unit
  let have_ := fun j => p.buf.any fun b => b.1 == j && decide (b.2.2 ≤ s.now)
  if p.epc then
    match (epcBlocks p.fmt (pullStream p p.dropped) p.lines have_ ((k * flitElems p.out + flitElems p.out - 1) / epcElems p.fmt + 1 - p.blk) p.pos) with
    | (bs, stop) =>
      let e := match bs.getLast? with | some b => (b.next - 1) / 128 | none => p.pos / 128
      let late := match stop with | some x => x.kind == 1 | none => false
      ((List.range (e + 1 - p.pos / 128)).map (· + p.pos / 128), late)
  else
    let a := unitFirst p.fmt p.out p.shape k
    let b := lastLineOf p.fmt p.shape p.out k
    -- lines before that of START_ROW are never read (R221)
    let ls := ((List.range (b + 1 - a)).map (· + a)).filter fun j =>
      decide (j < p.lines) && decide (pullFirst p.fmt p.out p.shape p.startRow ≤ j)
    (ls, ls.any fun j => !have_ j)

/-- The pull of a context has a unit to decode: the packet before it is on the lanes, and its lines are there. -/
def pullReady (s : State) (c : Nat) : Bool :=
  match getPull s c with
  | none => false
  | some p =>
    !(s.fab.out.any fun o => o.pull == some c) && decide (4 * p.unit < pullFlits p.out p.shape p.tiles p.lines) && (p.ended || !(pullNeed s p).2)

/-- Places from the context served last to another, round robin. -/
def ctxDist (s : State) (c : Nat) : Nat := (c + 7 - s.dec.lastCtx % 8) % 8

/-- Runs of stored bytes that the next unit of a pull is decoded from (07 R219, R220). -/
def pullBytes (s : State) (p : PullCtx) : List (Nat × Nat) :=
  if p.epc then
    let have_ := fun j => p.buf.any fun b => b.1 == j && decide (b.2.2 ≤ s.now)
    let bs := (epcBlocks p.fmt (pullStream p p.dropped) p.lines have_
      ((p.unit * flitElems p.out + flitElems p.out - 1) / epcElems p.fmt + 1 - p.blk) p.pos).1
    [(p.pos, (match bs.getLast? with | some b => b.next | none => p.pos + 1) - p.pos)]
  else plainBytes p.fmt p.shape p.out p.unit

/-- The decode slot of sclk x belongs to no pull: an EGRESS frond of the running frame presents a flit in it, or it is a guard slot (01 R22;
07 R206). -/
def decodeClaimed (s : State) (x : Nat) : Bool :=
  (match s.frm.frame0 with | some f => decide (f + period s ≤ x + 64) | none => false) ||
    (s.frm.runs && unhalted s x && (List.range (hdrCount (actEnts s 0))).any fun i =>
      let e := actEnts s (i + 1)
      let p := frameAt s (eStart e + eLead e)
      eKind e == 1 && unquenched s (frameAt s (eStart e)) && decide (p ≤ x) && decide (x < p + eBeats e))

/-- The decode slot of this sclk is free and it is the turn of this pull (07 R206; 17 R454). -/
def decodeTurn (s : State) (c : Nat) : Bool :=
  !decodeClaimed s s.now && s.dec.slotAt != some s.now && pullReady s c &&
    (List.range 8).all fun d => !pullReady s d || decide (ctxDist s c ≤ ctxDist s d)

/-- The lowest line of a buffer (07 R220); of an empty one, the line the context stands at. -/
def lowestHeld (buf : List (Nat × Line × Nat)) (at_ : Nat) : Nat :=
  match buf with
  | b :: bs => bs.foldl (fun m x => min m x.1) b.1
  | [] => at_

/-- Decode the next unit of a pull in this sclk, when its turn has come, and send it or discard it (R196, R197; 07 R206, R214). -/
def pullUnit (s00 : State) (c : Nat) : State :=
  match getPull s00 c with
  | none => s00
  | some p =>
    let k := p.unit
    let total := pullFlits p.out p.shape p.tiles p.lines
    if !decodeTurn s00 c then s00
    else
      let s := { s00 with dec := { s00.dec with slotAt := some s00.now, lastCtx := c } }
      let id := match getReq s p.slot with | some r => hTxn r.head | none => 0
      let s0 := s.bump (rk 0x08 0x08C)
      let emit := fun (s : State) (p : PullCtx) (l : Line) =>
        if 4 * p.unit + 4 ≤ p.sent then pullWant (setPull s c { p with unit := p.unit + 1 }) c
        else pullWant (sendUnit s c p l) c
      if p.ended then emit (decCounts s0 0 0 0 2) p deadFlit.line
      else
        let have_ := fun j => p.buf.any fun b => b.1 == j && decide (b.2.2 ≤ s.now)
        match sramRead s0 17 3 c with
        | (s1, some true) =>
          emit (decCounts (decEvent s1 id true 0 6 (4 * k) (p.line + lowestHeld p.buf (p.pos / 128))) 0 0 0 2) { p with ended := true } deadFlit.line
        | (s1, _) =>
          let need := pullNeed s p
          let runs := pullBytes s p
          let (s2, newBad) := (need.1.filter fun j => !p.dropped.contains j).foldl (fun (a : State × List Nat) j =>
            match ctxLineBad a.1 1 c j (wordsOf runs j) with | (s', true) => (s', a.2 ++ [j]) | (s', false) => (s', a.2)) (s1, [])
          let dropped := p.dropped ++ newBad
          let dec := fun (st : Nat → Line) =>
            if p.epc then epcFlit p.fmt p.out p.satFp8 p.satWide st p.lines have_ ⟨p.blk, p.pos⟩ k (pullSkip p)
            else (plainFlit p.fmt p.shape p.out p.satFp8 p.satWide st k (pullSkip p), ⟨0, 0⟩, none)
          let (f, a', stop) := dec (pullStream p dropped)
          let only := fun ds j => let l := pullStream p [] j; { l with sp0 := ds.contains j, sp1 := ds.contains j }
          let d := markedBy f dropped fun ds => (dec (only ds)).1
          let nDec := f.spDec + d.1 + d.2
          let nIn := f.spIn - (d.1 + d.2)
          let s3 := newBad.foldl (fun s j =>
            decEvent s id true 0 6 (4 * k + (if (markedBy f [j] fun ds => (dec (only ds)).1).1 = 1 then 0 else 2)) (p.line + j)) s2
          let s4 := match stop with
            | none => s3
            | some x => decEvent s3 id true 0 x.kind (4 * k + (if f.line.sp0 && f.spDec == 2 then 0 else 2)) (p.line + x.line)
          let lastUnit := 4 * k + 4 == total
          let s5 := if p.epc then
              (s4.bumpBy (rk 0x08 0x080) (a'.blk - p.blk)).bumpBy (rk 0x08 0x084)
                (epcConsumed a'.pos (lastUnit && stop.isNone) - epcConsumed p.pos false)
            else s4
          let keep := if p.epc then a'.pos / 128 else unitFirst p.fmt p.out p.shape (k + 1)
          let p1 := { p with
            blk := if p.epc then a'.blk else 0, pos := if p.epc then a'.pos else 0, ended := stop.isSome, dropped := dropped
            buf := p.buf.filter fun b => decide (keep ≤ b.1) }
          emit (decCounts s5 f.nans f.ovfs nIn nDec) p1 f.line

/-- A packet of a pull has been put on the lanes: its rows count as sent, and after the last one the pull completes (R198). -/
def pullSent (s : State) (c : Nat) (o : OutPkt) : State :=
  match getPull s c with
  | none => s
  | some p =>
    let p1 := { p with sent := p.sent + o.payload.length }
    let s1 := progressed (setPull s c p1) p.slot
    if bit o.head 181 then endPull s1 c (if p1.poison then okPoison else ok) false (s.now + 1 + o.payload.length) else pullWant s1 c

/-- Accept a push (R201). -/
def openPush (s : State) (slot : Nat) (h : BitVec 256) : State :=
  let x := hOffset h / 128
  let rg := reqRegion s slot
  queueBurst (setPhase s slot .thallus) 5 (.push slot) x rg (regionTwin rg x).isSome true

end Sys2Proof.Machine
end

