-- ==== Sys2Proof/Machine/Arbiter.lean ====
section
/-!
DEFINITION. The arbiter of the unscheduled plane and the accesses it grants, from their slots to their delivery
(01_architecture.md R22-R25; 04_thallus.md R116-R127, R138-R139; 13_errors_poison_scrub.md R348-R351; 14_sparing_rebuild.md R381, R387;
17_arbiter_unscheduled.md R453-R463).
-/

namespace Sys2Proof.Machine

/-! ### What the schedule occupies -/

/-- The schedule of the current frame as the arbiter sees it, in sclk. -/
structure Sched where
  /-- Frame sclk 0. -/
  f0 : Nat
  /-- First sclk after the refresh window. -/
  lo : Nat
  /-- First guard sclk. -/
  hi : Nat
  /-- Line accesses: slot, bank, row. -/
  accs : List (Nat × Nat × Nat)
  /-- The line accesses of the fronds that start, which hold their banks (04 R120). -/
  held : List (Nat × Nat × Nat)
  /-- Row commands: bank group, first and last slot. -/
  cmds : List (Nat × Nat × Nat)
  /-- STARTs of fences and of sleeps that no burst may straddle (05 R174, R180). -/
  cuts : List Nat
  /-- Unscheduled budget of the frame (01 R25). -/
  budget : Nat
deriving DecidableEq, Repr

/-- The schedule; none before the first frame sclk 0. While the slice is halted no program counts as held (18 R477). -/
def schedOf (s : State) : Option Sched :=
  match s.frm.frame0 with
  | none => none
  | some f0 =>
    let p := period s
    let capl := p * s.rf (rk 0x01 0x054) 9 0 / 256
    let lo := f0 + refreshSpan s
    let hi := f0 + p - 64
    let a := s.frm.charged
    if s.frm.active.isNone || s.obs.halted then some ⟨f0, lo, hi, [], [], [], [], capl - a⟩
    else
      let ents := actEnts s
      let cs := programClaims (penvOf s) ents (hdrCount (ents 0))
      let at_ := fun (l : List Claim) => (l.filter fun c => c.cls == 0).map fun c => (f0 + c.t, lineBank c.what, lineRow c.what)
      let cmds := (List.range 16).flatMap fun b =>
        (rowCmds none (bankAccs cs b)).1.map fun r => (bankGroup b, f0 + r.1.toNat, f0 + r.2.toNat)
      let cuts := if !s.frm.runs then [] else
        ((List.range (hdrCount (ents 0))).filter fun i => eKind (ents (i + 1)) == 8 || eKind (ents (i + 1)) == 0xA).map fun i =>
          f0 + eStart (ents (i + 1))
      some ⟨f0, lo, hi, at_ cs, at_ (startedClaims s), cmds, cuts, capl - a⟩

/-- Accesses that hold a bank, in slot order. -/
def Sched.bank (c : Sched) (b : Nat) : List (Nat × Nat) :=
  sortBy (fun x y => decide (x.1 ≤ y.1)) ((c.held.filter fun x => x.2.1 == b).map fun x => (x.1, x.2.2))

/-! ### Plans of bursts -/

/-- How a burst uses its slots. -/
structure Plan where
  /-- Slots taken, one interval for each bank group. -/
  takes : List Taken
  /-- Rows opened and left open, or banks closed: bank and row. -/
  rows : List (Nat × Option Nat)
  /-- Slot of the read of copy A. -/
  readAt : Option Nat
  /-- Slot of the write of copy A. -/
  writeAt : Option Nat
  /-- Last access slot. -/
  last : Nat
  /-- Later of the read slots, plus the latency to the controller output (04 R116, R138). -/
  outAt : Nat
  /-- Line accesses. -/
  n : Nat
  /-- Row activations. -/
  acts : Nat
deriving DecidableEq, Repr

/-- Row commands that one bank needs for a burst whose group slots begin at `t1` (04 R120): sclk before the first access, sclk after the
last, the row left open, activations, and the row the access must find when the bank is held. -/
def bankNeed (s : State) (c : Sched) (t1 bank row : Nat) : Option (Nat × Nat × Option Nat × Nat) :=
  let accs := c.bank bank
  let open_ := smGet s.thl.openRows bank
  let hit := fun (o : Option Nat) => if o = some row then some (0, 0, some row, 0) else if o.isSome then some (40, 0, some row, 1) else some (24, 0, some row, 1)
  match accs.head?, accs.getLast? with
  | some (a0, _), some (a1, r1) =>
    if t1 + 24 < a0 then some (24, 16, none, 1)
    else if t1 ≤ a1 then
      -- held: only a hit on the row the schedule has open
      let cur := (accs.filter fun x => decide (x.1 < t1)).getLast?
      let next := accs.find? fun x => decide (t1 ≤ x.1)
      let opened : Option Nat := match cur, next with
        | some (_, r), some (n, r') => if r = r' then some r else if t1 + 40 < n + 1 then some r else if n ≤ t1 then some r' else none
        | none, some (n, r') => if n ≤ t1 then some r' else none
        | some (_, r), none => some r
        | none, none => none
      if opened = some row then some (0, 0, none, 0) else none
    else hit (match open_ with | some r => some r | none => if a1 < s.thl.shutAt then none else some r1)
  | _, _ => hit open_

/-- The row stays open to the end of a held burst: no precharge of the bank begins before. -/
def heldUntil (c : Sched) (t1 bank row last : Nat) : Bool :=
  let accs := c.bank bank
  match accs.head?, accs.getLast? with
  | some (a0, _), some (a1, _) =>
    if t1 + 24 < a0 then decide (last + 24 < a0)
    else if t1 ≤ a1 then
      match accs.find? fun x => decide (t1 ≤ x.1) && x.2 != row with
      | some (n, _) => decide (last + 40 < n)
      | none => true
    else true
  | _, _ => true

/-- Plan of a burst on one line, its slots beginning at `t1`. -/
def planOne (s : State) (c : Sched) (t1 line : Nat) (reads writes : Bool) : Option Plan :=
  let bank := lineBank line
  let row := lineRow line
  match bankNeed s c t1 bank row with
  | none => none
  | some (d, tail, left, acts) =>
    let a := t1 + d
    let w := if reads then a + 11 else a
    let last := if writes then w else a
    if !heldUntil c t1 bank row (last + tail) then none
    else
      some { takes := [⟨bankGroup bank, t1, last + tail, (if reads then [a] else []) ++ (if writes then [w] else [])⟩]
             rows := if d = 0 ∧ left.isNone then [] else [(bank, left)]
             readAt := if reads then some a else none, writeAt := if writes then some w else none
             last := last, outAt := a + 10, n := b2n reads + b2n writes, acts := acts }

/-- Plan of a burst on both copies of a mirror line (04 R138, R139); `reads` both copies, `writes` both copies. -/
def planTwo (s : State) (c : Sched) (t1 la lb : Nat) (reads writes : Bool) : Option Plan :=
  let ba := lineBank la
  let bb := lineBank lb
  match bankNeed s c t1 ba (lineRow la), bankNeed s c t1 bb (lineRow lb) with
  | some (da, ta, oa, na), some (db, tb, ob, nb) =>
    let same := bankGroup ba == bankGroup bb
    let a := if same then t1 + da + db else t1 + max da db
    let b := if same then a + 1 else a
    let wa := if reads then b + 12 else a
    let wb := wa + 1
    let lastA := if writes then wa else a
    let lastB := if writes then wb else b
    if !heldUntil c t1 ba (lineRow la) (lastA + ta) || !heldUntil c t1 bb (lineRow lb) (lastB + tb) then none
    else
      let sa := (if reads then [a] else []) ++ (if writes then [wa] else [])
      let sb := (if reads then [b] else []) ++ (if writes then [wb] else [])
      let takes : List Taken := if same then [⟨bankGroup ba, t1, lastB + max ta tb, sa ++ sb⟩]
        else [⟨bankGroup ba, t1, lastA + ta, sa⟩, ⟨bankGroup bb, t1, lastB + tb, sb⟩]
      some { takes := takes
             rows := (if da = 0 ∧ oa.isNone then [] else [(ba, oa)]) ++ (if db = 0 ∧ ob.isNone then [] else [(bb, ob)])
             readAt := if reads then some a else none, writeAt := if writes then some wa else none
             last := max lastA lastB, outAt := b + 11, n := 2 * (b2n reads + b2n writes), acts := na + nb }
  | _, _ => none

/-- Plan of a catch-up round (04 R131). -/
def planRound (c : Sched) (t1 : Nat) : Option Plan :=
  let held := (List.range 16).any fun b =>
    match (c.bank b).head?, (c.bank b).getLast? with
    | some (a0, _), some (a1, _) => decide (a0 < t1 + 112 + 24) && decide (t1 ≤ a1)
    | _, _ => false
  if held then none
  else
    some { takes := (List.range 4).map fun g => ⟨g, t1, t1 + 111, []⟩, rows := (List.range 16).map fun b => (b, none)
           readAt := none, writeAt := none, last := t1 + 111, outAt := t1 + 111, n := 0, acts := 0 }

/-- Copy B that a burst reaches: the twin of its line under the region it goes by (03 R105), or what a repair's entry names; fill and rebuild
steps take a line as it is stored. -/
def burstTwin (s : State) (b : Burst) : Option Nat :=
  match b.kind with
  | .repair =>
    match s.ras.repairs.find? fun e => e.line == b.line with
    | some e => if e.copies.length = 2 then e.copies[1]? else none
    | none => none
  | _ => b.twin

/-- Line a burst is planned on. -/
def burstLine (s : State) (b : Burst) : Nat :=
  match b.kind with
  | .repair => match s.ras.repairs.find? fun e => e.line == b.line with
    | some e => e.copies.headD b.line
    | none => b.line
  | _ => b.line

/-- A write under way still holds a line at a slot: from its read to its last write slot (04 R123, R139). -/
def lineHeld (s : State) (line slot : Nat) : Bool :=
  s.thl.flights.any fun f => f.writeAt.isSome && (f.line == line || f.twin == some line) && decide (slot ≤ f.lastSlot)

/-- Plan of any burst from slot `t1`; another write's hold on its line makes it wait. -/
def planOf (s : State) (c : Sched) (b : Burst) (t1 : Nat) : Option Plan :=
  match b.kind with
  | .catchup => planRound c t1
  | _ =>
    let line := burstLine s b
    let twin := burstTwin s b
    let plan := match twin with
      | some l => planTwo s c t1 line l b.reads b.writes
      | none => planOne s c t1 line b.reads b.writes
    plan.filter fun p =>
      let x := (p.readAt.or p.writeAt).getD t1
      !(lineHeld s line x || (twin.map fun l => lineHeld s l x).getD false)

/-- Interval a of slots meets interval b. -/
def meetsIv (a0 a1 b0 b1 : Nat) : Bool := decide (a0 ≤ b1) && decide (b0 ≤ a1)

/-- Every slot of the plan is free under R22 and R23. -/
def planFree (s : State) (c : Sched) (p : Plan) (holds : List Taken) : Bool :=
  p.takes.all fun t =>
    decide (c.lo ≤ t.first) && decide (t.last < c.hi) &&
    !(c.cmds.any fun r => r.1 == t.group && meetsIv t.first t.last r.2.1 r.2.2) &&
    !(c.accs.any fun a => bankGroup a.2.1 == t.group && decide (t.first ≤ a.1) && decide (a.1 ≤ t.last)) &&
    !((s.thl.taken ++ holds).any fun x => x.group == t.group && meetsIv t.first t.last x.first x.last) &&
    (t.lines.all fun x =>
      decide ((c.accs.countP fun a => a.1 == x) + (s.thl.taken.map fun y => y.lines.count x).foldl (· + ·) 0
        + (p.takes.map fun y => y.lines.count x).foldl (· + ·) 0 ≤ 2)) &&
    !(c.cuts.any fun f => decide (s.now < f) && decide (f ≤ t.last))

/-- The plan's line accesses keep within the frame's unscheduled budget (01 R25). -/
def planPaid (s : State) (c : Sched) (p : Plan) : Bool := decide (s.frm.unsched + p.n ≤ c.budget)

/-! ### Heads (R453) -/

/-- Nothing but refresh uses the thallus (04 R500). -/
def initBusy (s : State) : Bool := s.thl.initDue || s.thl.initAt.isSome

/-- A flight of this kind is under way. -/
def inFlight (s : State) (k : BKind → Bool) : Bool := s.thl.flights.any fun f => k f.kind

/-- Requests that wait for a way's fill, by arrival. -/
def burstSlots (s : State) (b : Burst) : List Nat :=
  match b.kind with
  | .snapRead k => [k]
  | .uncWrite k => [k]
  | .atomic k => [k]
  | .push k => [k]
  | .fill set way => fillWaiters s set way
  | _ => []

/-- Arrival of the request a burst serves; one of the slice's own goes by the sclk in which it was presented (R453). -/
def burstArrival (s : State) (b : Burst) : Nat :=
  match (burstSlots s b).head?.bind (getReq s) with
  | some r => r.arrived
  | none => b.since

/-- A pull has still to be granted the read of a line. -/
def pullOwes (s : State) (c : Nat) (p : PullCtx) (line : Nat) : Bool :=
  !p.ended && decide (p.line + p.nextLine ≤ line) && decide (line < p.line + p.lines) &&
    (!(p.reading && line == p.line + p.nextLine) || s.arb.queue.any fun b => b.kind == .pull c)

/-- A push or a pull's read waits for an earlier pull or push of its source to the same line (06 R202). -/
def orderHeld (s : State) (b : Burst) : Bool :=
  let after := fun (i j : Nat) => match getReq s i, getReq s j with
    | some r, some q => hSrc q.head == hSrc r.head && decide (q.arrived < r.arrived)
    | _, _ => false
  match b.kind with
  | .push k => s.dec.pulls.any fun e => after k e.2.slot && pullOwes s e.1 e.2 b.line
  | .pull c =>
    match getPull s c with
    | some p => s.arb.queue.any fun q => match q.kind with | .push k => q.line == b.line && after p.slot k | _ => false
    | none => false
  | _ => false

/-- A quench keeps the burst from the arbiter: the request it serves reached stage 12 too late (17 R462). -/
def quenchHeld (s : State) (b : Burst) : Bool :=
  let slot := match b.kind with
    | .pull c => (getPull s c).map PullCtx.slot
    | _ => (burstSlots s b).head?
  match slot.bind (getReq s) with
  | some r => quenchHides s r
  | none => false

/-- The bursts of a requester that are ready for their access. -/
def presented (s : State) (rid : Nat) : List Burst :=
  s.arb.queue.filter fun b => b.rid == rid && decide (b.since ≤ s.now) && !orderHeld s b && !quenchHeld s b

/-- The oldest burst of a requester. -/
def oldest (s : State) (rid : Nat) : Option Burst :=
  (presented s rid).foldl
    (fun a b => match a with | none => some b | some x => if burstArrival s x ≤ burstArrival s b then some x else some b) none

/-- The head a requester presents; a queue entry or a pending line whose burst is under way has been granted
(notes/assumptions/65.md). -/
def headOf (s : State) (rid : Nat) : Option Burst :=
  if rid = 0 then (if s.thl.catchup && !inFlight s (· == .catchup) then some { rid := 0, kind := .catchup, line := 0, reads := false, writes := false, since := s.now } else none)
  else if initBusy s then none
  else match rid with
    | 4 =>
      let qs := presented s 4
      let ctx : Burst → Nat := fun b => match b.kind with | .pull c => (c + 7 - s.arb.lastPull % 8) % 8 | _ => 0
      qs.foldl (fun a b => match a with | none => some b | some x => if ctx x ≤ ctx b then some x else some b) none
    | 6 =>
      (s.ras.repairs.find? fun e => !s.thl.flights.any fun f => f.kind == .repair && e.copies.contains f.line).map fun e => ({ rid := 6, kind := .repair, line := e.line, reads := false, writes := true, since := e.since } : Burst)
    | 7 =>
      (nextFill s).map fun f => ({ rid := 7, kind := .fillStep f.1 f.2.1, line := f.2.2, reads := true, writes := true, since := s.now } : Burst)
    | 8 =>
      let rate := s.rf (rk 0x0A 0x054) 31 16
      if s.spr.rebuild = .running ∧ inFlight s (· == .rebuild) = false ∧ (rate = 0 ∨ s.spr.steps < rate) then
        some { rid := 8, kind := .rebuild, line := lineOfLap s.spr.front, reads := true, writes := true, since := s.now }
      else none
    | _ => oldest s rid

/-- A head is barred: a tier it needs is not awake (R456, R457). A catch-up round refreshes the tiers that are. -/
def headBarred (s : State) (b : Burst) : Bool := b.rid != 0 && !(thallusAwake s && t9Awake s)

/-- Current wait counter. -/
def waitOf (s : State) (rid : Nat) : Nat := nth s.arb.wait rid 0
/-- PRIO and LIMIT in force. -/
def prioOf (s : State) (rid : Nat) : Nat := s.rf (rk 0x0E (0x0C0 + 4 * rid)) 2 0
/-- LIMIT. -/
def limitOf (s : State) (rid : Nat) : Nat := s.rf (rk 0x0E (0x0C0 + 4 * rid)) 23 8
/-- The requester's head is forced (R458). -/
def isForced (s : State) (rid : Nat) : Bool := rid != 9 && decide (limitOf s rid ≤ waitOf s rid) && (headOf s rid).isSome

/-- Order of heads (R456). -/
def headLe (s : State) (a b : Nat) : Bool :=
  let fa := isForced s a
  let fb := isForced s b
  if fa && !fb then true
  else if fb && !fa then false
  else if fa then
    if a = 0 then true else if b = 0 then false
    else if waitOf s a = waitOf s b then decide (a ≤ b) else decide (waitOf s b < waitOf s a)
  else if prioOf s a ≠ prioOf s b then decide (prioOf s b < prioOf s a)
  else if waitOf s a = waitOf s b then decide (a ≤ b) else decide (waitOf s b < waitOf s a)

/-- Requesters with a head, in the order of R456. -/
def orderedHeads (s : State) : List Nat :=
  sortBy (headLe s) ((List.range 10).filter fun r => match headOf s r with | some b => !headBarred s b | none => false)

/-- Bank groups that a burst needs: a catch-up round needs all four (R458). -/
def needGroups (s : State) (b : Burst) : List Nat :=
  match b.kind with
  | .catchup => [0, 1, 2, 3]
  | _ => bankGroup (lineBank (burstLine s b)) :: (match burstTwin s b with | some l => [bankGroup (lineBank l)] | none => [])

/-- Heads that hold the bank groups they need: those that held them before, then the forced ones in the order of R456, each when no group of
its own is held (R458, R460). -/
def holdersOf (s : State) : List (Nat × Burst) :=
  let hs := orderedHeads s
  let kept := s.arb.holders.filter hs.contains
  (kept ++ hs.filter fun r => isForced s r && !kept.contains r).foldl (fun (acc : List (Nat × Burst)) r =>
    match headOf s r with
    | none => acc
    | some b => if (needGroups s b).any fun g => acc.any fun x => (needGroups s x.2).contains g then acc else acc ++ [(r, b)]) []

/-- The run a holder claims in the current frame: the earliest its burst fits into. -/
def holdRun (s : State) (c : Sched) (b : Burst) : Option (List Taken) :=
  (List.range (c.hi - s.now)).findSome? fun i =>
    match planOf s c b (s.now + 1 + i) with
    | some p => if planFree s c p [] && planPaid s c p then some p.takes else none
    | none => none

/-- Runs that holders claim: requester and its slots. A run that lies in a later frame bars nothing in this one. -/
def holdRuns (s : State) (c : Sched) : List (Nat × List Taken) :=
  (holdersOf s).filterMap fun x => (holdRun s c x.2).map fun t => (x.1, t)

/-! ### Grants -/

/-- The wait counter of a requester returns to 0 (R457). -/
def waitReset (s : State) (rid : Nat) : State :=
  let k := rk 0x0E (0x100 + 4 * rid)
  let s1 := s.rgFld k 31 16 (max (s.rf k 31 16) (waitOf s rid))
  { s1 with arb := { s1.arb with wait := s1.arb.wait.set rid 0, headAt := smDel s1.arb.headAt rid, holders := s1.arb.holders.filter (· != rid) } }

/-- A head that left without a grant: its counter, which rose through the sclk before, returns to 0 (R457). -/
def leaveHeads (s : State) : State :=
  (List.range 10).foldl (fun s r =>
    if (smGet s.arb.headAt r).isNone || (headOf s r).isSome then s
    else
      let n := s.now - 1 - max s.arb.lastDecision (smGetD s.arb.headAt r s.now - 1)
      waitReset { s with arb := { s.arb with wait := s.arb.wait.set r (min 65535 (waitOf s r + n)) } } r) s

/-- Start a granted burst: its slots are taken, its rows open or close, its accesses are charged. -/
def launch (s : State) (b : Burst) (p : Plan) : State :=
  let rows := p.rows.foldl (fun m r => match r.2 with | some x => smPut m r.1 x | none => smDel m r.1) s.thl.openRows
  let f : Flight :=
    { kind := b.kind, line := burstLine s b, twin := burstTwin s b, readAt := p.readAt, sample := none, sampleB := none
      writeAt := p.writeAt, outAt := p.outAt, lastSlot := p.last }
  let s1 : State := { s with
    thl := { s.thl with
      taken := (s.thl.taken.filter fun x => decide (s.now ≤ x.last)) ++ p.takes, openRows := rows, flights := s.thl.flights ++ [f]
      shutAt := if b.kind = .catchup then p.last else s.thl.shutAt }
    frm := { s.frm with unsched := s.frm.unsched + p.n } }
  pmuEv (pmuEv s1 0x21 p.n) 0x22 p.acts

/-- Grant a head (R456, R457). -/
def grantHead (s : State) (rid : Nat) (b : Burst) (p : Plan) : State :=
  let forced := isForced s rid
  let s1 := launch s b p
  let s2 : State := { s1 with
    arb := { s1.arb with queue := s1.arb.queue.erase b, lastPull := match b.kind with | .pull c => c | _ => s1.arb.lastPull }
    spr := { s1.spr with steps := if b.kind = .rebuild then s1.spr.steps + 1 else s1.spr.steps } }
  let s3 := match b.kind with
    | .snapRead k => progressed s2 k
    | .uncWrite k => progressed s2 k
    | .atomic k => progressed s2 k
    | .push k => progressed s2 k
    | _ => s2
  let s4 := pmuEv (waitReset (s3.bump (rk 0x0E (0x140 + 4 * rid))) rid) 0x58 1
  if forced then pmuEv (s4.bump (rk 0x0E 0x054)) 0x59 1 else s4

/-- The first head that fits at the next sclk, with its plan. -/
def firstFit (s : State) (c : Sched) (holds : List (Nat × List Taken)) (heads : List Nat) (used : List Nat) : Option (Nat × Burst × Plan) :=
  heads.findSome? fun r =>
    match headOf s r with
    | none => none
    | some b =>
      match planOf s c b (s.now + 1) with
      | none => none
      | some p =>
        if planFree s c p ((holds.filter fun h => h.1 != r).flatMap (·.2)) && planPaid s c p &&
            !(p.takes.any fun t => used.contains t.group) then some (r, b, p) else none

/-- A head would fit but for the budget of R25 (18 R467). -/
def capBlocked (s : State) (c : Sched) : Bool :=
  (orderedHeads s).any fun r =>
    match headOf s r with
    | none => false
    | some b =>
      match planOf s c b (s.now + 1) with
      | none => false
      | some p => planFree s c p [] && !planPaid s c p

/-- Line-path slots of the next sclk that were free and went to nobody (18 R467). -/
def idleSlots (s : State) (c : Sched) : Nat :=
  let x := s.now + 1
  if x < c.lo ∨ c.hi ≤ x then 0
  else 2 - (c.accs.countP fun a => a.1 == x) - (s.thl.taken.map fun y => y.lines.count x).foldl (· + ·) 0

/-- Wait counters rise for heads that were not granted (R457). -/
def waitRise (s : State) (granted : List Nat) : State :=
  (List.range 10).foldl (fun s r =>
    if granted.contains r then s
    else match headOf s r with
      | none => if waitOf s r = 0 then s else waitReset s r
      | some b =>
        let h := smGetD s.arb.headAt r s.now
        let n := s.now - max s.arb.lastDecision (h - 1)
        let s1 : State := { s with arb := { s.arb with headAt := smPut s.arb.headAt r h } }
        if headBarred s b then s1
        else { s1 with arb := { s1.arb with wait := s1.arb.wait.set r (min 65535 (waitOf s1 r + n)) } }) s

/-- The decision of the current sclk (R455-R458): at most one in an sclk. -/
def decide_ (s : State) : State :=
  match schedOf s with
  | none => s
  | some c =>
    if s.now ≤ s.arb.lastDecision ∨ failed s then s
    else
      let holds := holdRuns s c
      let heads := orderedHeads s
      let sh : State := { s with arb := { s.arb with holders := (holdersOf s).map (·.1) } }
      let s0 := if capBlocked sh c then pmuEv sh 0x24 1 else sh
      let (s1, g1, used) : State × List Nat × List Nat := match firstFit s0 c holds heads [] with
        | none => (s0, [], [])
        | some (r, b, p) => (grantHead s0 r b p, [r], p.takes.map fun t => t.group)
      let (s2, g2) := if g1.isEmpty then (s1, []) else
        match firstFit s1 c holds (heads.filter fun r => !g1.contains r) used with
        | none => (s1, [])
        | some (r, b, p) => (grantHead s1 r b p, [r])
      let s3 := pmuEv (waitRise s2 (g1 ++ g2)) 0x27 (idleSlots s2 c)
      { s3 with arb := { s3.arb with lastDecision := s3.now } }

/-! ### Slots of flights -/

/-- What a flight's read found: the resolved line and the epoch. -/
def flightLine (f : Flight) : Option (Line × Nat) :=
  match f.sample, f.sampleB with
  | some a, some b => let m := resolveMirror a b; some (m.line, m.epoch)
  | some a, none => some (a.line, a.epoch)
  | none, _ => none

/-- Count the read of a flight (13 R348). -/
def flightCount (s : State) (f : Flight) (followUp : Bool) : State :=
  match f.sample, f.sampleB, f.twin with
  | some a, some b, some t => noteMirror s f.line t a b followUp
  | some a, _, _ => noteRead s f.line a followUp
  | none, _, _ => s

/-- Write copy A now and leave the write of copy B to the last slot of the burst (04 R139, R140). -/
def writeCopies (s : State) (f : Flight) (a b : Nat) (l : Line) (epoch : Nat) : State :=
  let s1 := writeLine s a l epoch
  { s1 with thl := { s1.thl with flights := s1.thl.flights ++
      [{ kind := .copyB, line := b, twin := some a, readAt := none, sample := none, sampleB := none, writeAt := some f.lastSlot
         outAt := f.outAt, lastSlot := f.lastSlot, second := some (l, epoch) }] } }

/-- Store a flight's line: both copies with the next epoch when it is a mirror line (04 R139). -/
def flightStore (s : State) (f : Flight) (l : Line) (epoch : Nat) : State :=
  match f.twin with
  | some t => writeCopies s f f.line t l ((epoch + 1) % 16)
  | none => writeLine s f.line l 0

/-- EPOCH that a fill or rebuild step writes back: as read for a copy of a mirror line, which it takes as it is stored (14 R387), 0 for any
other line (04 R113). -/
def keptEpoch (s : State) (line : Nat) (r : LineRead) : Nat :=
  if (mirrorTwin s line).isSome || inShadow s line then r.epoch else 0

/-- The write of a flight takes its slot. -/
def flightWrite (s0 : State) (f : Flight) : State :=
  let s := flightCount s0 f false
  let rd := (flightLine f).getD (Line.zero, 0)
  match f.kind with
  | .uncWrite k =>
    match getReq s k with
    | some r => homeComp (flightStore s f (applyWrite rd.1 r.head r.payload) rd.2) k ok (f.lastSlot + 1)
    | none => s
  | .push k =>
    match getReq s k with
    | some r => finish (flightStore s f (payloadLine r.payload) rd.2) k ok 0 (f.lastSlot + 1)
    | none => s
  | .wback b =>
    match smGet s.cch.wb b with
    | some e => wbDone (flightStore s f e.line rd.2) b
    | none => s
  | .atomic k =>
    let (s1, l, a) := atomicMerge s k rd.1
    atomicDone (flightStore s1 f l rd.2) k a
  | .repair =>
    match s.ras.repairs.find? fun e => e.copies.contains f.line with
    | some e =>
      let s1 := s.bump (rk 0x09 (if e.isSeal then 0x0A0 else 0x098))
      match e.copies with
      | [a, b] => writeCopies s1 f a b e.data e.epoch
      | _ => writeLine s1 f.line e.data e.epoch
    | none => s
  | .fillStep t _ =>
    match f.sample with
    | some r =>
      if fillPending s t f.line then
        let s1 := if r.ue && !(lacking s).isEmpty then logErr s 0x0A 1 (mkFld 19 0 f.line + mkFld 23 20 t) else s
        writeLine s1 f.line (if r.ue then sealLine r else r.line) (keptEpoch s1 f.line r)
      else s
    | none => s
  | .rebuild =>
    match f.sample with
    | some r =>
      if (s.spr.rebuild = .running ∨ s.spr.rebuild = .paused) ∧ lapOf f.line = s.spr.front then
        writeLine (rebuildAdvance s) f.line (if r.ue then sealLine r else r.line) (keptEpoch s f.line r)
      else s
    | none => s
  | _ => s

/-- A refresh round has ended by sclk `at_`; with row 1,031 a pass ends and the next begins (04 R128, R131). -/
def roundDone (s : State) (at_ : Nat) : State :=
  let last := s.thl.refRow == 1031
  let s1 := pmuEv { s with thl := { s.thl with refRow := (s.thl.refRow + 1) % 1032 } } 0x25 1
  if last then
    let s2 := s1.rgSet (rk 0x03 0x054) (BitVec.ofNat 32 ((at_ - s1.thl.passStart) / 1024))
    { s2 with thl := { s2.thl with passStart := at_, catchup := false } }
  else s1

/-- Sclk of the next thing a flight does, none when it only waits to be delivered. -/
def flightNext (f : Flight) : Option Nat :=
  if f.kind = .catchup then some f.lastSlot
  else match f.readAt, f.sample with
    | some r, none => some r
    | _, _ => f.writeAt

/-- One slot of one flight: its read is captured, or its write is made and the flight is over; copy B of a mirror line follows as its own. -/
def flightStep (s : State) (f : Flight) : State :=
  let drop := { s with thl := { s.thl with flights := s.thl.flights.erase f } }
  if f.kind = .catchup then roundDone drop (f.lastSlot + 1)
  else match f.second with
  | some (l, e) => writeLine drop f.line l e
  | none =>
    match f.readAt, f.sample with
    | some _, none =>
      let f' := { f with sample := some (readLine s f.line), sampleB := f.twin.map (readLine s) }
      { s with thl := { s.thl with flights := s.thl.flights.map fun x => if x == f then f' else x } }
    | _, _ => flightWrite drop f

/-- Let every flight slot up to the current sclk happen, in slot order; the check of a sparing commit sees each as it finds it (14 R379). -/
def runFlights : Nat → State → State
  | 0, s => s
  | n + 1, s =>
    let next := s.thl.flights.foldl (fun (a : Option (Nat × Flight)) f =>
      match flightNext f with
      | some x => if x ≤ s.now then (match a with | some (y, g) => if y ≤ x then some (y, g) else some (x, f) | none => some (x, f)) else a
      | none => a) none
    match next with
    | some (x, f) => runFlights n (flightStep (sprCheckTo (camRead s) x) f)
    | none => s

/-- A read that is at the controller output is delivered (04 R126; 11 R304; 06 R196). -/
def deliver (s0 : State) (f : Flight) : State :=
  let s := flightCount { s0 with thl := { s0.thl with flights := s0.thl.flights.erase f } } f !f.stale
  match flightLine f with
  | none => s
  | some (l, _) =>
    match f.kind with
    | .fill set way => fillArrived s set way l
    | .prefetch set way => fillArrived s set way l
    | .snapRead k => homeData s k l
    | .pull c => pullLine s c f.outAt l
    | _ => s

/-- Deliver every read that is at the output, in the order of its sclk. -/
def deliverAll (s : State) : State :=
  (sortBy (fun (a b : Flight) => decide (a.outAt ≤ b.outAt))
    (s.thl.flights.filter fun f => f.writeAt.isNone && f.sample.isSome && decide (f.outAt ≤ s.now))).foldl deliver s

/-! ### Withdrawal (R459) -/

/-- INFO of GRANT_TMO for a request. -/
def infoGrant (rid : Nat) (h : BitVec 256) : Nat := mkFld 3 0 rid + mkFld 10 4 (hOpcode h) + mkFld 20 11 (hSrcId h) + mkFld 22 21 (hSrcType h)

/-- Withdraw a requester's head. -/
def withdraw (s : State) (rid : Nat) (b : Burst) : State :=
  let s1 := waitReset { s with arb := { s.arb with queue := s.arb.queue.erase b } } rid
  let log := fun (s : State) (h : BitVec 256) => logErr (s.bump (rk 0x0E 0x050)) 0x0E 0 (infoGrant rid h)
  let head := fun k => match getReq s1 k with | some r => r.head | none => 0
  match b.kind with
  | .snapRead k => homeComp (log s1 (head k)) k nackTmo (s1.now + 1)
  | .uncWrite k => homeComp (log s1 (head k)) k nackTmo (s1.now + 1)
  | .atomic k =>
    homeComp { (log s1 (head k)) with upd := { s1.upd with flights := s1.upd.flights.filter fun f => f.slot != k } } k nackTmo (s1.now + 1)
  | .push k => finish (log s1 (head k)) k nackTmo 0 (s1.now + 1)
  | .pull c =>
    let h := match getPull s1 c with | some p => head p.slot | none => 0
    endPull (log s1 h) c nackTmo false (s1.now + 1)
  | .fill set way =>
    let h := match fillWaiters s1 set way with | k :: _ => head k | [] => 0
    fillFailed (log s1 h) set way nackTmo
  | .prefetch set way => fillFailed (s1.bump (rk 0x0E 0x050)) set way nackTmo
  | _ => s1

/-- Withdraw the head of requester `rid` when it has waited TMO_WAIT (R459). -/
def grantTmoOp (s : State) (rid : Nat) : State :=
  let may := rid == 1 || rid == 3 || rid == 4 || rid == 5 || rid == 9
  match headOf s rid, smGet s.arb.headAt rid with
  | some b, some h => if may && decide (h + waitLimit s h ≤ s.now) then withdraw s rid b else s
  | _, _ => s

/-! ### Scrub reads (13 R357-R359) -/

/-- Move the scrub index on; a lap ends at the wrap. -/
def scrubNext (s : State) : State :=
  let k := s.rf (rk 0x09 0x078) 19 0
  if k = 1048575 then
    let s1 := (s.rgFld (rk 0x09 0x078) 19 0 0).rgSet (rk 0x09 0x07C) (s.rg (rk 0x09 0x080))
    let s2 := (s1.rgSet (rk 0x09 0x080) 0).rgSet (rk 0x09 0x074) (satInc (s1.rg (rk 0x09 0x074)) 31 16)
    { s2 with ras := { s2.ras with slowLogged := false } }
  else s.rgFld (rk 0x09 0x078) 19 0 (k + 1)

/-- One scrub read in an idle slot, if there is one for it. -/
def scrubOp (s : State) : State :=
  let k := s.rf (rk 0x09 0x078) 19 0
  let line := lineOfLap k
  if !s.rb (rk 0x09 0x074) 0 || initBusy s || failed s || decide (s.rf (rk 0x09 0x074) 11 4 ≤ s.ras.scrubs) then s
  else if !(thallusAwake s && t9Awake s) then s.rgFld (rk 0x09 0x078) 20 20 1
  else
    let s := s.rgFld (rk 0x09 0x078) 20 20 0
    if inShadow s line then scrubNext s
    else
      match schedOf s with
      | none => s
      | some c =>
        let b : Burst := { rid := 10, kind := .scrub, line := line, reads := true, writes := false, since := s.now, twin := mirrorTwin s line }
        match planOf s c b (s.now + 1) with
        | none => s
        | some p =>
          let holds := holdRuns s c
          -- the arbiter has made the decision of this sclk, or has no head that it could grant
          let idle := decide (s.now ≤ s.arb.lastDecision) || (firstFit s c holds (orderedHeads s) []).isNone
          if idle && planFree s c p (holds.flatMap (·.2)) && planPaid s c p then
            let s1 := launch s b p
            let s2 : State := { s1 with
              thl := { s1.thl with flights := s1.thl.flights.filter fun f => f.kind != .scrub }
              ras := { s1.ras with scrubs := s1.ras.scrubs + 1 } }
            let bad := match mirrorTwin s2 line with
              | some t => let x := readLine s2 line; let y := readLine s2 t
                let m := resolveMirror x y
                (x.ue && y.ue, !x.badTiers.isEmpty || !y.badTiers.isEmpty || m.fixA || m.fixB)
              | none => let x := readLine s2 line; (x.ue && !x.badTiers.isEmpty, !x.badTiers.isEmpty)
            let s3 := (readCount (pmuEv s2 0x26 1) line).1
            let s4 := if bad.1 then s3.bump (rk 0x09 0x094) else if bad.2 then s3.bump (rk 0x09 0x090) else s3
            scrubNext s4
          else s

end Sys2Proof.Machine
end

