-- ==== Sys2Proof/Machine/Mailbox.lean ====
section
/-!
DEFINITION. Mailbox channels and Torif's services (15_mailboxes_smc.md R395-R421).
-/

namespace Sys2Proof.Machine

/-- Page of a channel. -/
def mbxPage (secure : Bool) : Nat := if secure then 0x0D else 0x0C
/-- A channel. -/
def mbx (s : State) (secure : Bool) : MbxCh := if secure then s.mbs else s.mbn
/-- Replace it. -/
def setMbx (s : State) (secure : Bool) (c : MbxCh) : State := if secure then { s with mbs := c } else { s with mbn := c }
/-- Inbound words neither occupied nor reserved (R400, R420). -/
def inFree (c : MbxCh) : Nat :=
  8 - (c.inMsgs.map fun m => m.words.length).foldl (· + ·) 0 - (match c.inPart with | some m => m.total | none => 0)
/-- Outbound words of complete messages. -/
def outWords (c : MbxCh) : Nat := (c.outMsgs.map fun m => m.words.length).foldl (· + ·) 0
/-- Outbound words occupied or reserved (R402). -/
def outUsed (c : MbxCh) : Nat := outWords c + (match c.outPart with | some m => m.total | none => 0)

/-- STATUS as read (R420). -/
def mbxStatus (s : State) (secure : Bool) : Word :=
  let c := mbx s secure
  let w := s.rg (rk (mbxPage secure) 0x054)
  BitVec.ofNat 32 (mkFld 3 0 (inFree c) + mkFld 7 4 (outWords c) + mkFld 8 8 (b2n c.inPart.isSome) + mkFld 9 9 (b2n (outWords c != 0))
    + mkFld 11 10 (fld w 11 10) + mkFld 12 12 (b2n c.unacked.isSome))

/-- The SMC domain is powering up, or will as soon as its switch-off has ended (R398). -/
def smcWaking (s : State) : Bool :=
  match s.pwr.smc with | .rising _ => true | .falling _ => s.rb (rk 0x0B 0x040) 1 | _ => false

/-- DOORBELL as read. -/
def mbxDoorbell (s : State) (secure : Bool) : Word :=
  BitVec.ofNat 32 (b2n (mbx s secure).ring + mkFld 1 1 (b2n (smcOn s)) + mkFld 2 2 (b2n (smcWaking s)))

/-- SEQ as read. -/
def mbxSeq (c : MbxCh) : Word := BitVec.ofNat 32 (mkFld 7 0 c.inLast + mkFld 15 8 c.inAcked + mkFld 23 16 c.outLast + mkFld 31 24 c.outAcked)

/-- CTL.MODE = 1. -/
def mbxLocked (s : State) (secure : Bool) : Bool := s.rb (rk (mbxPage secure) 0x044) 0

/-- Owner number of a source (R408). -/
def ownerNum (src : Nat × Nat × Nat) : Nat := mkFld 14 0 src.2.2 + mkFld 16 15 src.1 + mkFld 26 17 src.2.1 + 2 ^ 31

/-- INFO naming a source. -/
def infoSrc (src : Nat × Nat × Nat) : Nat := mkFld 9 0 src.2.1 + mkFld 11 10 src.1

/-- INFO naming an owner number. -/
def infoOwner (n : Nat) : Nat := mkFld 9 0 (n / 2 ^ 17) + mkFld 11 10 (n / 2 ^ 15)

/-- The source owns the channel's lock. -/
def ownsLock (c : MbxCh) (src : Nat × Nat × Nat) : Bool := match c.lock with | some (o, _) => o == ownerNum src | none => false

/-- The owner accesses a register of the page (R409). -/
def touchLock (s : State) (secure : Bool) (src : Nat × Nat × Nat) : State :=
  let c := mbx s secure
  if ownsLock c src then setMbx s secure { c with lock := some (ownerNum src, s.now) } else s

/-- Send a mailbox `EVT` to a destination given as type, number and chip (R404, R405); it is ready two sclk after its cause, as in the worked
example of the chapter (notes/assumptions/40.md). -/
def mbxEvt (s : State) (secure : Bool) (dest : Nat × Nat × Nat) (code : Nat) : State :=
  sendEvt s dest (code + (if secure then 0x100 else 0)) (s.now + 2)

/-- Send an `EVT` to the NOTIFY destination (R405, R413). -/
def mbxNotify (s : State) (secure : Bool) (code : Nat) : State :=
  let n := s.rg (rk (mbxPage secure) 0x048)
  match fld n 1 0 with
  | 1 => mbxEvt s secure (0, fld n 25 16, s.straps.chip) code
  | 2 => mbxEvt s secure (2, fld n 25 16, s.straps.chip) code
  | _ => s

/-- Ring the doorbell (R398). -/
def mbxRing (s : State) (secure : Bool) : State := smcPowerUp (setMbx s secure { mbx s secure with ring := true })

/-- A write of IN_DATA: the response code (R400, R401). -/
def mbxPush (s : State) (secure : Bool) (src : Nat × Nat × Nat) (w : Word) : State × Nat :=
  let c := mbx s secure
  let p := mbxPage secure
  let put := fun (s : State) (c : MbxCh) (m : MbxMsg) =>
    let s1 := sramWrite s 19 (2 * b2n secure) c.inWr
    let c1 : MbxCh := { c with inWr := (c.inWr + 1) % 8 }
    if m.words.length = m.total then
      let seq := match m.words.head? with | some h => fld h.2 7 0 | none => 0
      pmuEv (setMbx s1 secure { c1 with inPart := none, inMsgs := c1.inMsgs ++ [m], inLast := seq }) 0x70 1
    else setMbx s1 secure { c1 with inPart := some m }
  let other := match c.inPart with | some m => m.src != src | none => false
  if other then (s, nackBusy)
  else if mbxLocked s secure && !ownsLock c src then (s, nackBusy)
  else
    match c.inPart with
    | some m => (put s c { m with words := m.words ++ [(c.inWr, w)] }, ok)
    | none =>
      if fld w 15 11 ≠ 0 then (logErr s p 0 (infoSrc src), nackRsvd)
      else if inFree c < fld w 10 8 + 1 then (s, nackFull)
      else (put s c { words := [(c.inWr, w)], src := src, total := fld w 10 8 + 1, bad := false, replied := false }, ok)

/-- A read of OUT_DATA: response code and word (R402, R407, R412). -/
def mbxPop (s : State) (secure : Bool) (src : Nat × Nat × Nat) : State × Nat × Word :=
  let c := mbx s secure
  if mbxLocked s secure && !ownsLock c src then (s, nackBusy, 0)
  else
    match c.outMsgs with
    | m :: rest =>
      match m.words with
      | (place, w) :: ws =>
        let i := m.total - m.words.length
        let (s1, r) := sramRead s 19 (2 * b2n secure + 1) place
        let bad := r == some true
        let s2 := if bad then logErr s1 (mbxPage secure) 4 (1 + mkFld 3 1 i) else s1
        let c1 : MbxCh := if ws.isEmpty then { c with outMsgs := rest, unacked := some m.src.1 } else { c with outMsgs := { m with words := ws } :: rest }
        (setMbx s2 secure c1, if bad then okPoison else ok, asRead bad w)
      | [] => (s, nackBusy, 0)
    | [] => (s, nackBusy, 0)

/-- ACK.OUT_ACK: the response code (R404, R407). -/
def mbxOutAck (s : State) (secure : Bool) (src : Nat × Nat × Nat) : State × Nat :=
  let c := mbx s secure
  if mbxLocked s secure && !ownsLock c src then (s, nackBusy)
  else
    match c.unacked with
    | some q => (setMbx s secure { c with unacked := none, outAcked := q }, ok)
    | none => (s, ok)

/-- Discard the partial inbound message (R409, R410). -/
def mbxDiscard (s : State) (secure : Bool) : State :=
  let c := mbx s secure
  match c.inPart with
  | some m => logErr (setMbx s secure { c with inPart := none }) (mbxPage secure) 3 (infoSrc m.src + mkFld 14 12 m.words.length)
  | none => s

/-- ACK.IN_ABORT: the response code (R410). -/
def mbxInAbort (s : State) (secure : Bool) (src : Nat × Nat × Nat) (ring : Nat) : State × Nat :=
  match (mbx s secure).inPart with
  | none => (s, ok)
  | some m => if m.src = src ∨ ring = 0 then (mbxDiscard s secure, ok) else (s, nackPerm)

/-- Release the lock; the owner's partial message goes with it (R409). -/
def mbxRelease (s : State) (secure : Bool) : State :=
  let c := mbx s secure
  match c.lock with
  | none => s
  | some (o, _) =>
    let mine := match c.inPart with | some m => ownerNum m.src == o | none => false
    let s1 := setMbx s secure { c with lock := none }
    if mine then mbxDiscard s1 secure else s1

/-- A read of LOCK (R407, R408). -/
def mbxLockRead (s : State) (secure : Bool) (src : Nat × Nat × Nat) : State × Word :=
  let c := mbx s secure
  if !mbxLocked s secure then (s, 0)
  else
    match c.lock with
    | none => (setMbx s secure { c with lock := some (ownerNum src, s.now) }, 0)
    | some (o, _) => if o = ownerNum src then (s, 0) else (s, BitVec.ofNat 32 o)

/-- A write of LOCK (R407, R408). -/
def mbxLockWrite (s : State) (secure : Bool) (src : Nat × Nat × Nat) : State :=
  if !mbxLocked s secure then s
  else if ownsLock (mbx s secure) src then mbxRelease s secure
  else logErr s (mbxPage secure) 2 (infoSrc src)

/-- The owner has been idle for LOCK_LIMIT (R409). -/
def mbxLockExpire (s : State) (secure : Bool) : State :=
  let lim := s.rf (rk (mbxPage secure) 0x044) 23 8
  match (mbx s secure).lock with
  | some (o, a) =>
    if lim ≠ 0 ∧ a + lim * 1024 ≤ s.now then mbxRelease (logErr s (mbxPage secure) 1 (infoOwner o)) secure else s
  | none => s

/-- A write of CTL that changes MODE is refused while the channel is in use (R411). -/
def mbxCtlBusy (s : State) (secure : Bool) (d : Word) : Bool :=
  let c := mbx s secure
  (bit d 0 != mbxLocked s secure) && (c.inPart.isSome || c.lock.isSome || c.unacked.isSome)

/-- Both queues, partial messages and STATUS bits empty (R397). -/
def mbxEmpty (s : State) (secure : Bool) : State :=
  let c := mbx s secure
  setMbx (s.rgSet (rk (mbxPage secure) 0x054) 8#32) secure
    { c with inMsgs := [], inPart := none, popped := [], outMsgs := [], outPart := none, unacked := none, agreed := false, lastReply := none }

/-- The SMC is held in reset or its domain is off: its firmware does nothing. -/
def smcRuns (s : State) : Bool := smcOn s && decide (s.pwr.smcReset ≤ s.now) && !failed s

/-! ### The SMC and Torif -/

/-- Effects of an SMC reset on one channel (R413): cause 0 watchdog, 1 SMC_UE, 2 requested. -/
def mbxSmcReset (s : State) (secure : Bool) (cause : Nat) : State :=
  let c := mbx s secure
  let s1 := setMbx (s.rgFld (rk (mbxPage secure) 0x054) 11 11 1) secure
    { c with outPart := none, popped := [], agreed := false, lastReply := none }
  mbxNotify (logErr s1 (mbxPage secure) 5 cause) secure 0xE003

/-- Count of the watchdog (R365). -/
def wdogCount (s : State) : Nat := match s.ras.wdogHeld with | some n => n | none => s.now - s.ras.wdogAt

/-- The count restarts. -/
def wdogRestart (s : State) : State :=
  { s with ras := { s.ras with wdogAt := s.now, wdogHeld := s.ras.wdogHeld.map fun _ => 0 } }

/-- Record a reset in SLC.RST_CAUSE: its cause and the field that counts it (16 R449). -/
def noteCause (s : State) (cause hi lo : Nat) : State :=
  let k := rk 0x00 0x050
  s.rgSet k (setFld (satInc (s.rg k) hi lo) 3 0 cause)

/-- The SMC alone is reset (16 R445; 15 R413): held for 16 sclk; `cause` 0 watchdog, 1 SMC_UE, 2 requested. -/
def smcResetOp (s : State) (cause : Nat) : State :=
  if !smcOn s then s
  else
    let s1 := noteCause s (if cause = 2 then 7 else 8) 27 20
    wdogRestart (mbxSmcReset (mbxSmcReset { s1 with
      pwr := { s1.pwr with smcReset := s1.now + 16 }, frm := { s1.frm with copy := none }
      spr := { s1.spr with wayOut := none } } false cause) true cause)

/-- The SMC reads the record of R416 from its memory: false when the word is uncorrectable, which is logged SMC_UE and resets the SMC
(13 R347). -/
def smcRecord (s : State) (secure : Bool) : State × Bool :=
  if (mbx s secure).lastReply.isNone then (s, true)
  else match sramRead s 19 4 (b2n secure) with
    | (s1, some true) => (smcResetOp (logErr s1 0x09 4 (mkFld 5 0 19 + mkFld 23 6 (b2n secure))) 1, false)
    | (s1, _) => (s1, true)

/-- Header word of a message (R399). -/
def mbxHead (m : MbxMsg) : Word := match m.words.head? with | some h => h.2 | none => 0
/-- SVC. -/
def mbxSvc (m : MbxMsg) : Nat := fld (mbxHead m) 31 16
/-- Payload word i. -/
def mbxWord (m : MbxMsg) (i : Nat) : Word := match m.words[i + 1]? with | some w => w.2 | none => 0

/-- The SMC pushes one outbound word: a header reserves room for its whole message, a payload word goes into the room reserved, and the last
word completes the message (R402, R405). False when it is not taken: a reserved header bit, or no room for the message. -/
def mbxOutWord (s : State) (secure : Bool) (w : Word) : State × Bool :=
  let c := mbx s secure
  let put := fun (m : MbxMsg) =>
    let s1 := sramWrite s 19 (2 * b2n secure + 1) c.outWr
    let c1 : MbxCh := { c with outWr := (c.outWr + 1) % 8 }
    if m.words.length = m.total then
      mbxNotify (pmuEv (setMbx s1 secure { c1 with outPart := none, outMsgs := c1.outMsgs ++ [m], outLast := m.src.1 }) 0x71 1) secure 0xE001
    else setMbx s1 secure { c1 with outPart := some m }
  match c.outPart with
  | some m => (put { m with words := m.words ++ [(c.outWr, w)] }, true)
  | none =>
    if fld w 15 11 ≠ 0 ∨ 8 < outUsed c + (fld w 10 8 + 1) then (s, false)
    else (put { words := [(c.outWr, w)], src := (fld w 7 0, 0, 0), total := fld w 10 8 + 1, bad := false, replied := false }, true)

/-- The SMC pushes outbound words in turn; from one that is not taken on, it waits (R402). -/
def mbxOut (s : State) (secure : Bool) (ws : List Word) : State × Bool :=
  ws.foldl (fun a w => if a.2 then mbxOutWord a.1 secure w else a) (s, true)

/-- Torif pushes a message of its own: not between the words of another (R402). -/
def mbxSend (s : State) (secure : Bool) (ws : List Word) : State × Bool :=
  if (mbx s secure).outPart.isSome then (s, false) else mbxOut s secure ws

/-- Payload word 0 of a reply: status in [7:0], the request's SEQ in [31:24]. -/
def replyWord (m : MbxMsg) (status extra : Nat) : Word := BitVec.ofNat 32 (status + extra + mkFld 31 24 (fld (mbxHead m) 7 0))

/-- The oldest popped message is answered; acknowledged before, it is done with. -/
def markReplied : List MbxMsg → List MbxMsg
  | [] => []
  | m :: r => if m.replied then m :: markReplied r else if m.acked then r else { m with replied := true } :: r

/-- The oldest popped message is acknowledged; answered before, it is done with. -/
def markAcked : List MbxMsg → List MbxMsg
  | [] => []
  | m :: r => if m.acked then m :: markAcked r else if m.replied then r else { m with acked := true } :: r

/-- The oldest popped message that has no reply yet. -/
def torifNext (c : MbxCh) : Option MbxMsg := c.popped.find? fun m => !m.replied

/-- Push the reply to it (R417): `svc` its SVC, `ws` its payload words; with `keep` the message counts as executed and its reply is kept
(R416), in a word of SMC memory (13 R347; notes/assumptions/47.md). Without room, or while a message of the SMC's is still partial, nothing
happens. -/
def torifReply (s : State) (secure : Bool) (m : MbxMsg) (svc : Nat) (ws : List Word) (keep : Bool) : State × Bool :=
  let c := mbx s secure
  let h := BitVec.ofNat 32 (mkFld 7 0 (c.outLast + 1) + mkFld 10 8 ws.length + mkFld 31 16 svc)
  match mbxSend s secure (h :: ws) with
  | (s1, true) =>
    let s2 := if keep then sramWrite s1 19 4 (b2n secure) else s1
    let c1 := mbx s2 secure
    (setMbx s2 secure { c1 with
      popped := markReplied c1.popped
      lastReply := if keep then some (fld (mbxHead m) 7 0, svc, ws) else c1.lastReply }, true)
  | (s1, false) => (s1, false)

/-- SVC of a service Torif has. -/
def torifKnows (svc : Nat) : Bool := svc == 1 || svc == 2 || svc == 0x10

/-- The stored reply of a repeated SEQ: SVC and payload (R416). -/
def storedReply (c : MbxCh) (m : MbxMsg) : Option (Nat × List Word) :=
  match c.lastReply with
  | some (q, v, ws) => if q = fld (mbxHead m) 7 0 then some (v, ws) else none
  | none => none

/-- An answer that takes no service (R412, R416-R418): a poisoned word BAD_ARG, a repeated SEQ its stored reply, an undefined SVC
UNKNOWN_SVC, a missing handshake NO_HANDSHAKE, a wrong length BAD_LEN (notes/assumptions/40.md). -/
def torifCommon (c : MbxCh) (m : MbxMsg) : Option (Nat × List Word) :=
  let svc := mbxSvc m
  let say := fun status => some (svc ||| 0x8000, [replyWord m status 0])
  if m.bad then say 3
  else match storedReply c m with
    | some r => some r
    | none =>
      if 0x8000 ≤ svc ∨ svc = 0x20 then say 1
      else if svc ≠ 1 ∧ !c.agreed then say 6
      else if !torifKnows svc then say 1
      else if m.total ≠ (if svc = 0x10 then 3 else 2) then say 2
      else none

/-- Torif answers the oldest messages whose SVC it does not have, n at most. -/
def torifRest : Nat → State → Bool → State
  | 0, s, _ => s
  | n + 1, s, secure =>
    match torifNext (mbx s secure) with
    | none => s
    | some m =>
      if torifKnows (mbxSvc m) then s
      else match smcRecord s secure with
        | (s1, false) => s1
        | (s1, true) =>
          match torifCommon (mbx s1 secure) m with
          | none => s1
          | some (v, ws) =>
            match torifReply s1 secure m v ws false with
            | (s2, true) => torifRest n s2 secure
            | (_, false) => s1

/-- The SMC pops the oldest complete inbound message and takes the ring; it gets each word as read, an uncorrectable one with its flipped
bits (R398, R401, R412); one whose SVC Torif does not have is answered. -/
def mbxSmcPop (s0 : State) (secure : Bool) : State :=
  let s := setMbx s0 secure { mbx s0 secure with ring := false }
  let c := mbx s secure
  match c.inMsgs with
  | [] => s
  | m :: rest =>
    let (s1, ws, bad) := m.words.zipIdx.foldl (fun (a : State × List (Nat × Word) × Bool) x =>
      match sramRead a.1 19 (2 * b2n secure) x.1.1 with
      | (s', some true) => (logErr s' (mbxPage secure) 4 (mkFld 3 1 x.2), a.2.1 ++ [(x.1.1, asRead true x.1.2)], true)
      | (s', _) => (s', a.2.1 ++ [x.1], a.2.2)) (s, [], false)
    let c1 := mbx s1 secure
    let got := { m with words := ws, bad := bad }
    torifRest (c1.popped.length + 1) (setMbx s1 secure { c1 with inMsgs := rest, popped := c1.popped ++ [got] }) secure

/-- Torif acknowledges the oldest popped message that it has not acknowledged (R404). -/
def mbxSmcAck (s : State) (secure : Bool) : State :=
  let c := mbx s secure
  match c.popped.find? fun m => !m.acked with
  | none => s
  | some m =>
    let k := rk (mbxPage secure) 0x054
    let s1 := setMbx (s.rgFld k 10 10 1) secure { c with popped := markAcked c.popped, inAcked := fld (mbxHead m) 7 0 }
    if m.src.1 = 0 ∨ m.src.1 = 2 then mbxEvt s1 secure m.src 0xE002 else s1

/-- Torif serves the oldest unanswered message, when its SVC is this one: with an answer that takes no service, else by `act`. -/
def torifServe (s0 : State) (secure : Bool) (svc : Nat) (act : State → MbxMsg → State) : State :=
  let s := torifRest (mbx s0 secure).popped.length s0 secure
  match torifNext (mbx s secure) with
  | none => s
  | some m =>
    if mbxSvc m ≠ svc then s
    else match smcRecord s secure with
      | (s1, false) => s1
      | (s1, true) =>
        match torifCommon (mbx s1 secure) m with
        | some (v, ws) => (torifReply s1 secure m v ws false).1
        | none => act s1 m

/-- Numbers of the Torif image: major, minor and build are not the slice's (notes/assumptions/5.md). -/
def torifVersion : Word := BitVec.ofNat 32 (Config.freeValue (2 ^ 48)).toNat

/-- VERSION (R418). -/
def torifVersionOp (s : State) (secure : Bool) : State :=
  torifServe s secure 1 fun s m =>
    let p := fld (mbxWord m 0) 7 0
    if p = 0 then (torifReply s secure m 0x8001 [replyWord m 3 0] false).1
    else
      let b := match s.straps.build with | .L => 0 | .S => 1
      let ws := [replyWord m 0 (mkFld 15 8 1), torifVersion, BitVec.ofNat 32 (3 + mkFld 5 2 (level s) + mkFld 7 6 b)]
      match torifReply s secure m 0x8001 ws true with
      | (s1, true) => setMbx s1 secure { mbx s1 secure with agreed := true }
      | (s1, false) => s1

/-- PING (R417). -/
def torifPingOp (s : State) (secure : Bool) : State :=
  torifServe s secure 2 fun s m => (torifReply s secure m 0x8002 [replyWord m 0 0, mbxWord m 0] true).1

/-- A channel is in use: SMC off is refused (R414). -/
def mbxInUse (s : State) (secure : Bool) : Bool :=
  let c := mbx s secure
  !c.inMsgs.isEmpty || c.inPart.isSome || !c.outMsgs.isEmpty || c.outPart.isSome || c.unacked.isSome || c.ring

end Sys2Proof.Machine
end

