-- ==== Sys2Proof/Machine/Ras.lean ====
section
/-!
DEFINITION. Patrol, timeouts, watchdog, stall monitor, forced fail-stop and received FAULT messages (13_errors_poison_scrub.md R356-R374).
-/

namespace Sys2Proof.Machine

/-- One patrol read when its interval has passed (R360): the tags of a set, then the same set of the directory. Points that have gone by
without a read are not made up for (DESIGN CHOICE, notes/assumptions/61.md). -/
def patrolOp (s : State) : State :=
  let k := rk 0x09 0x088
  let step := s.rf k 8 1 * 1024
  if !s.rb k 0 || failed s || !s.pwr.logic || decide (s.now < s.ras.patrolAt + step) then s
  else
    let set := s.rf k 24 16
    let s1 : State := { (s.rgFld k 24 16 ((set + 1) % 512)) with ras := { s.ras with patrolAt := s.now - (s.now - s.ras.patrolAt) % step } }
    let s2 := tagCheck s1 set
    if failed s2 then s2 else dirCheck s2 set

/-- A write of PATROL_CTL that changes EN or INTERVAL starts the interval again (R360; notes/assumptions/61.md): `s` is the state before it and
`s1` the one it leaves. -/
def patrolRestart (s s1 : State) : State :=
  let k := rk 0x09 0x088
  if s.rf k 8 0 = s1.rf k 8 0 then s1 else { s1 with ras := { s1.ras with patrolAt := s1.now } }

/-- A request table entry waits longer than TMO_WAIT for a way, a buffer line or an engine queue (R364). -/
def waitTmoOp (s : State) (slot : Nat) : State :=
  match getReq s slot with
  | none => s
  | some r =>
    let w : Option (Nat × Nat) := match r.phase with
      | .waitWay n => some (n, 0) | .waitWb n => some (n, 1) | .waitEng n => some (n, 2) | _ => none
    match w with
    | none => s
    | some (n, kind) =>
      if s.now < n + waitLimit s n then s
      else
        let h := r.head
        let s1 := logErr s 0x09 7 (mkFld 6 0 (hOpcode h) + mkFld 16 7 (hSrcId h) + mkFld 18 17 (hSrcType h) + mkFld 20 19 kind)
        homeComp s1 slot nackTmo (s1.now + 1)

/-- The watchdog reaches its limit (R365). -/
def wdogOp (s : State) : State :=
  let k := rk 0x09 0x070
  if smcOn s && s.rb k 0 && !failed s && decide (limitAt s (rk 0x09 0x06C) s.ras.wdogAt ≤ wdogCount s) then
    smcResetOp (logErr (s.rgSet k (satInc (s.rg k) 15 8)) 0x09 8 0) 0
  else s

/-- The stall limit of an entry whose last progress was at a sclk (R362). -/
def stallLimit (s : State) (start : Nat) : Nat :=
  max (max (cnetLimit s start) (waitLimit s start)) (max (blockLimit s start) (fwdLimit s start)) + 8192

/-- An entry without progress for the stall limit (R368). -/
def stallOp (s : State) (slot : Nat) : State :=
  match getReq s slot with
  | none => s
  | some r =>
    if r.progress + stallLimit s r.progress ≤ s.now then
      let info := mkFld 5 0 slot + mkFld 12 6 (hOpcode r.head)
      failStop (logErr s 0x09 9 info) 6 0x09 9 info
    else s

/-- FS_CTL.FORCE (R371). -/
def forceOp (s : State) (h : BitVec 256) : State :=
  let info := mkFld 9 0 (hSrcId h) + mkFld 11 10 (hSrcType h)
  if failed s then s else failStop (logErr s 0x09 10 info) 7 0x09 10 info

/-- CTL.CNT_CLR (R374). -/
def rasClear (s : State) : State := (List.range 7).foldl (fun s i => s.rgSet (rk 0x09 (0x090 + 4 * i)) 0) s

/-- CTL.BKT_CLR (R374): LEVEL, OVF_CNT and UE_CNT of every domain, and the leak timers. -/
def bktClear (s : State) : State :=
  let s1 := (List.range (nDomains s.straps.build)).foldl (fun s d => s.rgFld (rk 0x09 (0x104 + 8 * d)) 30 0 0) s
  { s1 with ras := { s1.ras with leakAt := [], leakBase := s1.now } }

/-- SCRUB_CTL.RESTART (R359). -/
def scrubRestartOp (s : State) : State :=
  let s1 := (s.rgFld (rk 0x09 0x078) 19 0 0).rgSet (rk 0x09 0x080) 0
  { s1 with ras := { s1.ras with slowLogged := false } }

/-- A write of DOM_CFGd (R356): the leaks of the old setting come first, then the timer restarts. -/
def domCfgOp (s : State) (d : Nat) (v : Word) : State :=
  let s1 := applyLeaks s d
  let s2 := s1.rgSet (rk 0x09 (0x100 + 8 * d)) (v &&& 0x1FFFFF#32)
  { s2 with ras := { s2.ras with leakAt := smPut s2.ras.leakAt d s2.now } }

/-- A FAULT of another tile (R372). -/
def faultRxOp (s : State) (tile cls : Nat) : State :=
  if tile = s.straps.tile then s
  else
    let s1 := (s.bump (rk 0x09 0x0A8)).rgSet (rk 0x09 0x060) (BitVec.ofNat 32 (0x80000000 + tile + cls * 256))
    logErr s1 0x09 12 (mkFld 7 0 tile + mkFld 11 8 cls)

/-- The FAULT message is due again (02 R77). -/
def faultRepeatOp (s : State) : State :=
  if failed s && decide (s.ras.faultAt + 4096 ≤ s.now) then
    sendSnet { s with ras := { s.ras with faultAt := s.ras.faultAt + 4096 } } 7 (s.straps.tile + s.rf (rk 0x09 0x054) 3 1 * 256)
      (s.ras.faultAt + 4096)
  else s

end Sys2Proof.Machine
end

