-- ==== Sys2Proof/Machine/Power.lean ====
section
/-!
DEFINITION. Power domains, tier commands, the wake governor's messages and retention (16_power_clocks_reset.md R422-R437, R450-R452).
-/

namespace Sys2Proof.Machine

/-! ### Governor -/

/-- A WAKE_GNT for this tile is accepted (R430). -/
def wakeGntOp (s : State) (count : Nat) : State :=
  match s.pwr.req with
  | some (n, _, _, _) => { s with pwr := { s.pwr with tokens := if s.pwr.queue.isEmpty then 0 else min count n, req := none } }
  | none => logErr s 0x0B 2 (mkFld 3 0 count)

/-- The resend interval of an outstanding WAKE_REQ has passed (R430). With an empty queue there is no number of wakes to ask for, and
nothing is sent (notes/assumptions/8.md). -/
def resendOp (s : State) : State :=
  match s.pwr.req with
  | some (_, a, r, slow) =>
    if s.now < a + s.rf (rk 0x0B 0x058) 7 0 * 1024 ∨ s.pwr.queue.isEmpty then s
    else
      let r1 := min (r + 1) 255
      let lim := s.rf (rk 0x0B 0x058) 15 8
      let hit := decide (lim ≠ 0) && decide (lim ≤ r1) && !slow
      let s1 := sendWakeReq s r1 (slow || hit)
      if hit then logErr s1 0x0B 1 (mkFld 3 0 (min s.pwr.queue.length 10) + mkFld 11 4 r1) else s1
  | none => s

/-- The wake of a tier has taken WAKE_TMO sclk (R431). -/
def wakeTmoOp (s : State) (n : Nat) : State :=
  let x := tier s n
  if x.st = .waking ∧ x.start + x.tmo ≤ s.now then
    declareTier (logErr s 0x0B 0 (mkFld 3 0 n + mkFld 4 4 (b2n (!x.fromSleep)))) n 3
  else s

/-- The wake of a tier ends (R426), unless its timeout has come first. -/
def wakeDoneOp (s : State) (n : Nat) : State :=
  let x := tier s n
  if x.st = .waking ∧ x.start < s.now then
    if x.start + x.tmo ≤ s.now then wakeTmoOp s n else wakeEnds s n
  else s

/-- The sleep entry of a tier ends once the accesses already granted are done (R427). -/
def sleepDoneOp (s : State) (n : Nat) : State :=
  let x := tier s n
  if x.st = .entering ∧ x.start < s.now ∧ s.thl.flights = [] then entryEnds s n else s

/-- PWR.TIER_STATE as read. -/
def tierStates (s : State) : Word :=
  BitVec.ofNat 32 ((List.range 10).map fun n => mkFld (3 * n + 2) (3 * n) (tierCode (tier s n).st)).sum

/-- PWR.GOV_STATUS as read. -/
def govStatus (s : State) : Word :=
  let q := ((List.range 10).filter fun n => s.pwr.queue.contains n).map (2 ^ ·) |>.sum
  let r := match s.pwr.req with | some (_, _, r, _) => r | none => 0
  BitVec.ofNat 32 (q + mkFld 13 10 s.pwr.tokens + mkFld 14 14 (b2n s.pwr.req.isSome) + mkFld 15 15 (b2n s.straps.tokenEn) + mkFld 23 16 r)

/-! ### TIER_CMD (R451) -/

/-- Tiers a TIER_CMD word names. -/
def cmdTiers (d : Word) : List Nat := (List.range 10).filter (bit d)

/-- A `TIER_CMD` write whose value is allowed: its response code. -/
def tierCmdOp (s : State) (d : Word) : State × Nat :=
  let op := fld d 13 12
  let ts := cmdTiers d
  if op ≠ 1 ∧ ts.any (fun n => (planActive s).testBit n || (planPending s).testBit n) then (s, nackFrame)
  else if op ≠ 1 ∧ ts.contains 9 ∧ t9Needed s = true then (s, nackBusy)
  else (ts.foldl (fun s n => if op = 1 then wakeTier s n true false else sleepTierReq s n (op == 3)) s, ok)

/-! ### Domains (R433, R434) -/

/-- A domain is between two states. -/
def switching : DomState → Bool | .rising _ => true | .falling _ => true | _ => false

/-- The held programs use the accumulators (05 R175). -/
def groupsHeld (s : State) : Bool :=
  let uses := fun half => let ents := entryOf s.frm.mem half
    (List.range (hdrCount (ents 0))).any fun i => [3, 4, 5, 6].contains (eKind (ents (i + 1)))
  (s.frm.active.isSome && uses s.frm.activeHalf) || (s.frm.pend.isSome && uses (otherHalf s))

/-- Switch the ENG domain. -/
def engSwitch (s : State) (on : Bool) : State :=
  match s.pwr.eng, on with
  | .on, false => { s with pwr := { s.pwr with eng := .falling (s.now + 32) }, acc := { s.acc with ready := false } }
  | .off, true => { s with pwr := { s.pwr with eng := .rising (s.now + 160) } }
  | _, _ => s

/-- Switch the SMC domain. -/
def smcSwitch (s : State) (on : Bool) : State :=
  match s.pwr.smc, on with
  | .on, false => { s with pwr := { s.pwr with smc := .falling (s.now + 32) } }
  | .off, true => { s with pwr := { s.pwr with smc := .rising (s.now + 1600) } }
  | _, _ => s

/-- A `DOMAIN_CTL` write: its response code. Each bit that changes is checked; a write that changes the bit of a domain that is switching
is refused (R434). -/
def domainOp (s : State) (d : Word) : State × Nat :=
  let k := rk 0x0B 0x040
  let e := bit d 0
  let m := bit d 1
  let chE := e != s.rb k 0
  let chM := m != s.rb k 1
  if (chE && switching s.pwr.eng) || (chM && switching s.pwr.smc) then (s, nackBusy)
  else if chE && !e && groupsHeld s then (s, nackFrame)
  else if chM && !m && (mbxInUse s false || mbxInUse s true) then (s, nackBusy)
  else (smcSwitch (engSwitch ((s.rgFld k 0 0 (b2n e)).rgFld k 1 1 (b2n m)) e) m, ok)

/-- Transitions whose time has come end (R433, R434; 08 R250; 10 R277; 15 R397). -/
def domainDone (s : State) : State :=
  let s1 := match s.pwr.eng with
    | .rising u => if u ≤ s.now then accReset { s with pwr := { s.pwr with eng := .on } } else s
    | .falling u =>
      if u ≤ s.now then
        let s' := loseAtomics (accReset { s with pwr := { s.pwr with eng := .off } })
        { s' with acc := { s'.acc with initAt := none } }
      else s
    | _ => s
  match s1.pwr.smc with
  | .rising u => if u ≤ s1.now then { s1 with pwr := { s1.pwr with smc := .on, smcReset := 0 }, ras := { s1.ras with wdogAt := s1.now } } else s1
  | .falling u =>
    if u ≤ s1.now then
      -- a power-up asked for meanwhile starts now (15 R398)
      let st := if s1.rb (rk 0x0B 0x040) 1 then DomState.rising (s1.now + 1600) else .off
      mbxEmpty (mbxEmpty { s1 with pwr := { s1.pwr with smc := st } } false) true
    else s1
  | _ => s1

/-- PWR.DOMAIN_STATUS as read. -/
def domainStatus (s : State) : Word :=
  BitVec.ofNat 32 (b2n s.pwr.logic + mkFld 1 1 (b2n (engOn s)) + mkFld 2 2 (b2n (smcOn s)) + mkFld 3 3 (b2n (switching s.pwr.eng))
    + mkFld 4 4 (b2n (switching s.pwr.smc)) + mkFld 5 5 (b2n s.pwr.retained))

/-! ### Retention (R435-R437) -/

/-- The checks of ENTER after S, in order: the refusal, none when it is accepted. `slots` are the request table entries other than the
write's. -/
def retainCheck (s : State) (slots : Nat) : Option Nat :=
  if !(s.frm.state == .idle || s.frm.state == .stopped) || s.frm.active.isSome || s.frm.pend.isSome || s.frm.inact == .validating then some nackFrame
  else if slots ≠ 0 ∨ !s.dec.pulls.isEmpty then some nackBusy
  else if s.rgn.pending ∨ !s.rgn.nows.isEmpty ∨ s.spr.pending ∨ !s.spr.nows.isEmpty ∨ s.upd.mapAt.isSome ∨
      !s.upd.mapNows.isEmpty ∨ !s.spr.fills.isEmpty ∨ !(s.spr.rebuild == .idle || s.spr.rebuild == .done) ∨ !s.cch.wb.isEmpty then some nackBusy
  else if mbxInUse s false ∨ mbxInUse s true then some nackBusy
  else if (List.range 10).any fun n => let t := (tier s n).st; t == .queued || t == .waking || t == .entering then some nackBusy
  else none

/-- The response to an accepted ENTER leaves: sclk r of R436 (notes/assumptions/11.md). -/
def retainEnterOp (s : State) : State :=
  if s.pwr.retainAt.isNone then { s with pwr := { s.pwr with retainAt := some s.now, recorded := [] } } else s

/-- Tiers that enter SLEEP at r + 17. -/
def retainSleep (s : State) : State :=
  let up := (List.range 10).filter fun n => (tier s n).st == .awake
  let s1 := up.foldl (fun s n => enterSleep s n false) { s with ras := { s.ras with repairs := [] } }
  { s1 with pwr := { s1.pwr with recorded := up } }

/-- The domains are off at r + 81: LOGIC loses its contents, and the refresh pass timer stops (R436; 04 R132). -/
def retainOff (s : State) (at_ : Nat) : State :=
  let s1 := s.pwr.recorded.foldl (fun s n => if (tier s n).st = .entering then entryEnds s n else s) s
  { s1 with
    thl := { s1.thl with passHeld := some at_, openRows := [], flights := [], taken := [] }
    pwr := { s1.pwr with logic := false, eng := .off, smc := .off, retainAt := none, retained := true } }

/-- What an accepted ENTER brings by the current sclk. -/
def retainStep (s : State) : State :=
  match s.pwr.retainAt with
  | none => s
  | some r =>
    let s1 := if r + 17 ≤ s.now ∧ s.pwr.recorded = [] then retainSleep s else s
    if r + 81 ≤ s1.now then retainOff s1 (r + 81) else s1

/-- EXIT, or the release of a warm reset in retention: LOGIC is up 320 sclk later (R437). -/
def retainExitOp (s : State) (cause : Nat) : State :=
  if s.pwr.retained && s.pwr.logicUp.isNone then { s with pwr := { s.pwr with logicUp := some (s.now + 320, cause) } } else s

end Sys2Proof.Machine
end

