-- ==== Sys2Proof/Machine/Reset.lean ====
section
/-!
DEFINITION. Resets and release sequences, the initialization passes and their ends (16_power_clocks_reset.md R440-R445; 04_thallus.md
R130-R132, R500; 08 R250; 11 R316; 12 R342; 13 R370).
-/

namespace Sys2Proof.Machine

/-- The class of the fail-stop the slice is in, 0 for none. -/
def fsClass (s : State) : Nat := if failed s then s.rf (rk 0x09 0x054) 3 1 else 0

/-- Assertion of a cold reset at the current sclk (R440, R442). -/
def coldAssert (s : State) : State := State.cold s.straps s.now (s.thl.gen.map (· + 1)) s.drawn s.pending

/-- A channel across a warm reset: SEQ and the doorbell stay, the lock is released (15 R397). -/
def mbxWarm (c : MbxCh) : MbxCh :=
  { MbxCh.empty with inLast := c.inLast, inAcked := c.inAcked, outLast := c.outLast, outAcked := c.outAcked, ring := c.ring }

/-- Trace registers a warm reset keeps: TRC_FILT and TRC_LOST (18 R482). -/
def isTrcKept (key : Nat) : Bool := key == rk 0x10 0x050 || key == rk 0x10 0x05C

/-- LOGIC, ENG and SMC at their reset values; AON, the tiers and the thallus stay, and so does the trace unless retention ends (R440;
04 R132; 13 R370; 14 R383; 18 R482). -/
def warmState (s : State) (trace : Bool) : State :=
  let c := State.cold s.straps s.now s.thl.gen s.drawn s.pending
  let kept := s.regs.filter fun e => isAon e.1 || (trace && isTrcKept e.1)
  { c with
    regs := kept
    fab := { c.fab with sOut := s.fab.sOut.filter (fun m => m.typ == 5), sLanes := s.fab.sLanes, sFree := s.fab.sFree }
    thl := { c.thl with cells := s.thl.cells, base := s.thl.base, refRow := s.thl.refRow, rounds := s.thl.rounds, passStart := s.thl.passStart
                        passHeld := s.thl.passHeld, initDue := s.thl.initDue || s.thl.initAt.isSome }
    frm := { c.frm with frame0 := s.frm.frame0 }
    obs := if trace then { c.obs with trc := s.obs.trc, trcCount := s.obs.trcCount, trcWr := s.obs.trcWr, trcFull := s.obs.trcFull } else c.obs
    ras := { c.ras with upsets := s.ras.upsets.filter fun u => u.1 == 18 && (u.2.1 == 2 || (trace && u.2.1 == 4)) }
    pwr := { s.pwr with eng := .off, smc := .off, retainAt := none, smcReset := 0 }
    spr := { c.spr with
      camAct := s.spr.camAct, laneAct := s.spr.laneAct, laneSw := s.spr.laneSw, fills := s.spr.fills
      rebuild := (match s.spr.rebuild with | .running => .paused | .waking => .idle | x => x)
      pos := s.spr.pos, serves := s.spr.serves, front := s.spr.front }
    mbn := mbxWarm s.mbn, mbs := mbxWarm s.mbs }

/-- Line writes whose slot has begun complete at the assertion (R442). -/
def lastWrites (s : State) : State := runFlights 64 s

/-- Assertion of a warm reset at the current sclk; a fail-stop of class REFRESH leaves the thallus undefined (R442; 13 R370). -/
def warmAssert (s0 : State) : State :=
  let s := lastWrites s0
  let cls := fsClass s
  let s1 := warmState s true
  let s2 := (s1.rgFld (rk 0x09 0x054) 0 0 0)
  let s3 : State := { s2 with pwr := { s2.pwr with endedFs := cls } }
  let s4 : State := if cls = 1 then
      { s3 with thl := { s3.thl with cells := [], gen := s3.thl.gen.map (· + 1), base := List.replicate 10 0, initDue := true } }
    else s3
  pruneQueue s4

/-- Tiers that the end of retention wakes (R437). -/
def wakeRecorded (s : State) : State :=
  let s1 := s.pwr.recorded.foldl (fun s n => wakeTier s n false true) s
  { s1 with pwr := { s1.pwr with recorded := [] } }

/-- Two positions still lack a tier: the slice enters fail-stop again (13 R370). -/
def doubleAgain (s : State) : State :=
  if 2 ≤ (lacking s).length then
    let t := s.rf (rk 0x03 0x048) 23 20
    failStop (logErr s 0x03 3 (mkFld 3 0 t)) 2 0x03 3 (mkFld 3 0 t)
  else s

/-- Sclk 0 of a warm release sequence at `at_` (R443): ENG and SMC come on as DOMAIN_CTL holds them. -/
def warmStart (s : State) (at_ cause : Nat) : State :=
  let s1 := noteCause s cause 11 4
  let s2 : State := { s1 with pwr := { s1.pwr with
    eng := if s1.rb (rk 0x0B 0x040) 0 then .on else .off, smc := if s1.rb (rk 0x0B 0x040) 1 then .on else .off, endedFs := 0 } }
  doubleAgain (s2.startLogic at_)

/-- End of retention: the pass timer goes on, frames are timed from sclk 0 of the sequence (04 R130, R132). -/
def retainEnd (s : State) (at_ cause : Nat) : State :=
  let s1 := warmState s false
  let ps := match s.thl.passHeld with | some h => s.thl.passStart + (at_ - h) | none => s.thl.passStart
  let s2 : State := { s1 with
    thl := { s1.thl with passStart := ps, passHeld := none, rounds := 0 }
    frm := { s1.frm with frame0 := some at_, selfTimed := true }
    pwr := { s1.pwr with retained := false, logicUp := none } }
  wakeRecorded (warmStart s2 at_ cause)

/-- LOGIC is powered up (R437). -/
def logicUpStep (s : State) : State :=
  match s.pwr.logicUp with
  | some (u, c) => if u ≤ s.now ∧ s.pwr.wrst = false then retainEnd s u c else s
  | none => s

/-! ### Frame reset (R444) -/

/-- The frame engine is IDLE with both halves EMPTY, the ingress buffer empty, the egress contexts free, the lanes initialized; SEQ is
kept (05 R172, R203). -/
def frameResetOp (s : State) : State :=
  let s0 := settleRows (catchUp s s.now)
  let s1 := discardBoth s0
  let s2 : State := { s1 with
    frm := { s1.frm with
      state := .idle, runs := false, faulted := false, haltAt := none, barriers := [], ingress := [], egress := []
      progress := [], held := [], tickRef := none, stopAt := none, selfTimed := true }
    dec := { s1.dec with egr := [] }
    obs := { s1.obs with haltPend := false, halted := false, stepping := false } }
  accReset (noteCause s2 6 19 12)

/-! ### Ordered resets (R441) -/

/-- Order a reset: its response leaves at sclk `r`. A running reset of the same or a higher rank has the say (R440). -/
def orderReset (s : State) (k : ResetKind) (r : Nat) : State :=
  let rank : ResetKind → Nat := fun k => match k with | .smc => 0 | .frame => 1 | .warm => 2 | .cold => 3
  let free := match s.pwr.ordered with | some (k', _, _, _) => decide (rank k' ≤ rank k) | none => true
  if free then { s with pwr := { s.pwr with ordered := some (k, r + 16, r + 32, false) } } else s

/-- A warm reset is asserted while LOGIC is off: a power-up that runs starts again at the release (R437, R440). -/
def holdWarm (s : State) : State := { s with pwr := { s.pwr with wrst := true, logicUp := none } }

/-- The assertion of an ordered reset of a kind, to be released at sclk `r`. -/
def assertReset (s : State) (k : ResetKind) (r : Nat) : State :=
  match k with
  | .cold => coldAssert s
  | .warm => if s.pwr.logic then let c := warmAssert s; { c with pwr := { c.pwr with wrst := true } } else holdWarm s
  | .frame => let c := frameResetOp s; { c with acc := { c.acc with initAt := if engOn c then some r else none } }
  | .smc => if smcOn s then let c := smcResetOp s 2; { c with pwr := { c.pwr with smcReset := r } } else s

/-- The assertion of an ordered reset takes effect when its sclk has come. -/
def orderedStep (s : State) : State :=
  match s.pwr.ordered with
  | some (k, a, r, false) =>
    if s.now < a then s
    else let c := assertReset s k r; { c with pwr := { c.pwr with ordered := some (k, a, r, true) } }
  | _ => s

/-- An ordered reset is released, and its release sequence starts in the next sclk (R441). In retention LOGIC powers up first (R437). -/
def orderedRelease (s : State) : State :=
  match s.pwr.ordered with
  | some (k, _, r, true) =>
    if s.now < r then s
    else match k with
      | .cold => (s.rgFld (rk 0x00 0x050) 3 0 2).coldStart (r + 1)
      | .warm =>
        if s.pwr.logic then warmStart s (r + 1) 4
        else retainExitOp { s with pwr := { s.pwr with wrst := false, ordered := none } } 4
      | _ => { s with pwr := { s.pwr with ordered := none } }
  | _ => s

/-- PORST_N is asserted (R442). -/
def porstAssertOp (s : State) : State := coldAssert s

/-- PORST_N is released and the good-slice map has been read: the current sclk is sclk 0 of the sequence (R443;
notes/assumptions/63.md). -/
def porstReleaseOp (s : State) (good : BitVec 256) : State :=
  if s.pwr.porst && s.pwr.ordered.isNone then
    { s with straps := { s.straps with good := good, fused := !good.getLsbD s.straps.tile } }.coldStart s.now
  else s

/-- WRST_N is asserted (R442); a running cold reset has the say. -/
def wrstAssertOp (s : State) : State :=
  if s.pwr.porst || s.straps.fused || s.pwr.wrst then s
  else if !s.pwr.logic then holdWarm s
  else let c := warmAssert s; { c with pwr := { c.pwr with wrst := true, ordered := none } }

/-- WRST_N is released: the sequence starts, or LOGIC powers up first when the slice was in retention (R437, R443). -/
def wrstReleaseOp (s : State) : State :=
  if !s.pwr.wrst || s.pwr.ordered.isSome || s.pwr.porst then s
  else if !s.pwr.logic then retainExitOp { s with pwr := { s.pwr with wrst := false } } 3
  else warmStart s s.now 3

/-! ### Initializations -/

/-- Every tier of T0-T8 is AWAKE or FAILED. -/
def tiersUp (s : State) : Bool := (List.range 9).all fun n => tierFailed s n || (tier s n).st == .awake

/-- The initialization pass starts (04 R500). -/
def thlInitStartOp (s : State) : State :=
  if s.thl.initDue && s.thl.initAt.isNone && tiersUp s && logicRuns s && !failed s then
    { s with thl := { s.thl with initDue := false, initAt := some s.now, initLost := 0 } }
  else s

/-- Chunk of position p of a zero line. -/
def zeroChunk (line p : Nat) : BitVec 144 := storedChunk line p Line.zero 0

/-- The base of T9 after the pass: the position it stands in for, or what it was. -/
def baseNine (s : State) : Nat :=
  match (List.range 9).find? fun p => t9For s p && tierFailed s p && !tierFailed s 9 with | some p => p + 1 | none => nth s.thl.base 9 0

/-- The pass writes every data row: each position that has a tier holds the chunks of zero lines. -/
def zeroData (s : State) : State :=
  { s with thl := { s.thl with
      base := (List.range 9).map (fun p => if tierFailed s p then 0 else p + 1) ++ [baseNine s]
      cells := s.thl.cells.filter fun e => baseNine s == 0 && e.1 / (16 * 1032 * 64) == 9 } }

/-- A remapped row is written in its sorus row. -/
def zeroRow (s : State) (e : Nat × Word) : State :=
  let t := e.1 / 64
  let c := camEntry e.2
  if c.1 && !tierFailed s t && (t != 9 || nth s.thl.base 9 0 != 0) then
    (List.range 64).foldl (fun s col =>
      writeCell s t c.2.1 (1024 + c.2.2.2) col (zeroChunk (mkLine c.2.2.1 c.2.1 col) (if t = 9 then s.spr.pos else t))) s
  else s

/-- The pass has written every line of the slice (04 R500), so no fill is pending (14 R382). -/
def zeroThallus (s : State) : State :=
  let s1 := s.spr.camAct.foldl zeroRow (zeroData s)
  { s1 with spr := { s1.spr with fills := [] } }

/-- Sclk in which a pass that started at sclk a could make an access: those outside the refresh and guard classes (04 R500). -/
def initSclk (s : State) (a : Nat) : Nat := s.now - a - (s.thl.initLost + closedSclk s (max a (s.frm.frame0.getD a)))

/-- The pass ends: at most one line access in a sclk, 1,048,576 lines (04 R500). -/
def thlInitEndOp (s : State) : State :=
  match s.thl.initAt with
  | some a =>
    if 1048576 ≤ initSclk s a then
      let s1 := zeroThallus s
      { s1 with thl := { s1.thl with initAt := none } }
    else s
  | none => s

/-- Lanes are initialized (08 R250). -/
def accInitOp (s : State) : State :=
  match s.acc.initAt with
  | some a => if a + 512 ≤ s.now then { s with acc := { s.acc with initAt := none, ready := true } } else s
  | none => s

/-- Tags are invalid (11 R316). -/
def cchInitOp (s : State) : State :=
  match s.cch.initAt with
  | some a => if a + 160 ≤ s.now then { s with cch := { s.cch with initAt := none, ready := true } } else s
  | none => s

/-- The directory is clear (12 R342). -/
def dirInitOp (s : State) : State :=
  match s.dir.initAt with
  | some a => if a + 256 ≤ s.now then { s with dir := { s.dir with initAt := none, ready := true } } else s
  | none => s

/-- SLC.STATUS.THL_READY (16 R449). -/
def thlReady (s : State) : Bool :=
  tiersUp s && (!t9Needed s || tierFailed s 9 || (tier s 9).st == .awake) && !s.thl.initDue && s.thl.initAt.isNone

/-- SLC.STATUS.LOGIC_READY: from sclk 516 of the release sequence (16 R443, R449). -/
def logicReady (s : State) : Bool := decide (s.pwr.seq0 + 516 ≤ s.now) && s.cch.ready && s.dir.ready && (s.acc.ready || !engOn s)

/-- SLC.STATUS as read. -/
def slcStatus (s : State) : Word :=
  BitVec.ofNat 32 (b2n (logicReady s && thlReady s) + mkFld 1 1 (b2n (logicReady s)) + mkFld 2 2 (b2n s.cch.ready) + mkFld 3 3 (b2n (thlReady s))
    + mkFld 4 4 (b2n (failed s)) + mkFld 5 5 (b2n s.pwr.retained))

end Sys2Proof.Machine
end

