-- ==== Sys2Proof/Machine/Observe.lean ====
section
/-!
DEFINITION. Performance counters over time, debug mode and halts, the trace buffer's reads, event lines (18_pmu_debug_events.md R465-R489).
-/

namespace Sys2Proof.Machine

/-! ### Counters over time -/

/-- Event codes of R467. -/
def pmuEvents : List Nat :=
  [0x00, 0x01, 0x10, 0x11, 0x12, 0x13, 0x14, 0x15, 0x16, 0x17, 0x18, 0x20, 0x21, 0x22, 0x23, 0x24, 0x25, 0x26, 0x27, 0x30, 0x38, 0x39, 0x3A,
   0x3B, 0x3C, 0x40, 0x41, 0x42, 0x43, 0x44, 0x45, 0x46, 0x48, 0x49, 0x4A, 0x4B, 0x4C] ++
  [0x50, 0x51, 0x52, 0x53, 0x54, 0x55, 0x56, 0x57, 0x58, 0x59, 0x5A, 0x60, 0x61, 0x62, 0x63, 0x68, 0x69, 0x70, 0x71]

/-- A packet is ready and only a credit keeps it (R467, CREDIT_STALL). -/
def creditStall (s : State) : Bool :=
  s.fab.out.any fun p => decide (p.readyAt ≤ s.now) && decide (s.fab.laneFree ≤ s.now) &&
    decide (nth s.fab.credHeld p.vc 0 < 1 + p.payload.length)

/-- What an event that has a value in every sclk adds in one sclk. -/
def occupancy (s : State) (code : Nat) : Nat :=
  match code with
  | 0x01 => 1
  | 0x46 => s.cch.fills.length
  | 0x4C => s.dir.blocked.length
  | 0x53 => b2n (creditStall s)
  | 0x57 => tableUsed s
  | 0x5A => (List.range 10).countP fun r => (headOf s r).isSome
  | 0x69 => (List.range 10).countP fun n => (tier s n).st == .awake
  | _ => 0

/-- What counter n adds in one sclk for time alone. -/
def pmuRate (s : State) (n : Nat) : Nat :=
  if pmuFrozen s then 0
  else if n = 8 then b2n (s.rb (rk 0x0F 0x040) 0)
  else
    let c := s.rg (rk 0x0F (0x080 + 0x10 * n))
    if bit c 8 then occupancy s (fld c 7 0) else 0

/-- Sclk until counter n wraps at rate r. -/
def pmuWrapIn (s : State) (n r : Nat) : Nat := cdiv ((if n = 8 then 2 ^ 64 else 2 ^ 48) - pmuVal s n) r

/-- Let d sclk pass for the counters, stopping at every wrap, so that a freeze takes effect in its sclk (R468). -/
def pmuSpan : Nat → State → Nat → State
  | 0, s, _ => s
  | fuel + 1, s, d =>
    let rates := ((List.range 9).map fun n => (n, pmuRate s n)).filter fun x => decide (0 < x.2)
    let step := rates.foldl (fun m x => min m (pmuWrapIn s x.1 x.2)) d
    if d = 0 then s
    else
      let s1 := rates.foldl (fun s x => pmuAdd s x.1 (x.2 * step)) { s with now := s.now + (step - 1) }
      if step < d then pmuSpan fuel { s1 with now := s.now + step } (d - step) else { s1 with now := s.now }

/-- CTL.CNT_CLR (R469). -/
def pmuClear (s : State) : State := (List.range 9).foldl (fun s n => pmuSet s n 0) s

/-- Let the counters count up to sclk `t`. -/
def pmuCount (s : State) (t : Nat) : State :=
  if t ≤ s.obs.pmuTo then s
  else
    let f := s.obs.pmuTo
    let a := { s with now := f }
    let c :=
      if s.obs.frozenAt = some f then pmuSpan 10 { pmuSpan 10 a 1 with now := f + 1 } (t - (f + 1))
      else pmuSpan 10 a (t - f)
    { c with now := s.now, obs := { c.obs with pmuTo := t } }

/-! ### Debug control (R474-R477) -/

/-- Trace a debug event (R478). -/
def trcDebug (s : State) (kind : Nat) : State := trace s 5 kind 0

/-- A `DBG.CTL` write with word d and S of the request: its response code. -/
def dbgCtlOp (s : State) (d : Word) (secure : Bool) : State × Nat :=
  let acts := popCount 4 (fld d 3 1)
  let mode := debugMode s
  if 1 < acts then (s, nackRsvd)
  else if !secure then (s, nackSec)
  else if acts = 1 ∧ mode = false then (s, nackPerm)
  else if !bit d 0 && (s.obs.halted || s.obs.haltPend) then (s, nackBusy)
  else
    let s1 :=
      if bit d 1 then (if s.obs.halted then s else { s with obs := { s.obs with haltPend := true } })
      else if bit d 2 then
        let s' := { s with obs := { s.obs with halted := false, haltPend := false, stepping := false } }
        if s.obs.halted then trcDebug s' 3 else s'
      else if bit d 3 && s.obs.halted then trcDebug { s with obs := { s.obs with halted := false, haltPend := true, stepping := true } } 4
      else s
    let k := rk 0x10 0x040
    if bit d 0 = mode then (s1, ok)
    else if bit d 0 then (trcDebug (s1.rgFld k 0 0 1) 0, ok)
    else (trcDebug (s1.rgFld k 0 0 0) 1, ok)

/-! ### Trace reads (R480, R481) -/

/-- TRC_CTL.CLR. -/
def trcClear (s : State) : State :=
  { (s.rgSet (rk 0x10 0x05C) 0) with obs := { s.obs with trc := [], trcCount := 0, trcWr := 0, trcFull := false } }

/-- Slot of the record OFS places after the oldest. -/
def trcSlot (s : State) : Nat := (s.obs.trcWr + 1024 - s.obs.trcCount + s.rf (rk 0x10 0x058) 10 0) % 1024

/-- Read the record at OFS; a read not below COUNT returns 0. -/
def trcLook (s : State) : State × BitVec 128 :=
  if s.obs.trcCount ≤ s.rf (rk 0x10 0x058) 10 0 then (s, 0)
  else
    let i := trcSlot s
    let r := smGetD s.obs.trc i 0
    let (s1, b0) := plainRead s 18 4 (2 * i)
    let (s2, b1) := plainRead s1 18 4 (2 * i + 1)
    (s2, (if b0 then r ^^^ 3#128 else r) ^^^ (if b1 then (3#128 <<< 64) else 0))

/-- A read of TRC_DATA0. -/
def trcRead0 (s : State) : State × Word :=
  let (s1, r) := trcLook s
  ({ s1 with obs := { s1.obs with trcHold := some (r.extractLsb' 32 96) } }, r.extractLsb' 0 32)

/-- A read of TRC_DATAn, n = 1-3; that of TRC_DATA3 moves OFS on. -/
def trcReadN (s : State) (n : Nat) : State × Word :=
  let (s1, w) : State × Word := match s.obs.trcHold with
    | some h => (s, h.extractLsb' (32 * (n - 1)) 32)
    | none => let (s', r) := trcLook s; (s', r.extractLsb' (32 * n) 32)
  if n = 3 then
    let k := rk 0x10 0x058
    (s1.rgSet k (BitVec.ofNat 32 (min (s1.rf k 10 0 + 1) (max s1.obs.trcCount (s1.rf k 10 0)))), w)
  else (s1, w)

/-- TRC_STATUS as read. -/
def trcStatus (s : State) : Word :=
  BitVec.ofNat 32 (mkFld 10 0 s.obs.trcCount + mkFld 20 11 s.obs.trcWr + mkFld 21 21 (b2n s.obs.trcFull))

/-- DBG.STATUS as read. -/
def dbgStatus (s : State) : Word :=
  BitVec.ofNat 32 (b2n (debugMode s) + mkFld 1 1 (b2n s.obs.haltPend) + mkFld 2 2 (b2n s.obs.halted) + mkFld 31 16 s.obs.haltFrame)

/-! ### Event lines (R485-R488) -/

/-- SELn of a line. -/
def kSel (n : Nat) : Nat := rk 0x11 (0x050 + 4 * n)

/-- An allowed SELn value (R485). -/
def selOk (d : Word) : Bool :=
  let arg := fld d 15 8
  match fld d 7 0 with
  | 0x08 => decide (arg ≤ 0x11)
  | 0x09 => decide (arg ≤ 8)
  | 0x0A => true
  | 0x0B => true
  | 0x0C => decide (arg ≤ 9)
  | 0x0E => decide (arg ≤ 1)
  | 0x10 => decide (arg ≤ 15)
  | src => decide (src ≤ 0x10) && decide (arg = 0)

/-- A pulse of the source falls in sclk t or in the one before. -/
def pulseAt (s : State) (src arg t : Nat) : Bool :=
  match smGet s.obs.pulses (src * 256 + arg) with | some p => decide (p ≤ t) && decide (t ≤ p + 1) | none => false

/-- S(t) of a source while the state stands as it is. -/
def sourceVal (s : State) (src arg t : Nat) : Bool :=
  match src with
  | 0x01 => true
  | 0x03 => s.frm.state == .running
  | 0x04 => s.obs.halted
  | 0x05 => failed s
  | 0x06 => quenched s
  | 0x07 => logicReady s && thlReady s
  | 0x08 => errPending s arg
  | 0x0A => (pmuVal s (arg % 8)).testBit (arg / 8)
  | 0x0C => (tier s arg).st == .awake
  | 0x0D => s.spr.rebuild == .running
  | 0x0E => outWords (mbx s (arg == 1)) != 0
  | 0x0F => debugMode s
  | 0x10 => s.rb (rk 0x11 0x044) arg
  | 0x02 => pulseAt s src arg t
  | 0x09 => pulseAt s src arg t
  | 0x0B => pulseAt s src arg t
  | _ => false

/-- A line at rest. -/
def EvLine.rest : EvLine := { out := false, since := 0, wr := none }

/-- O(t + 1) of a line from O(t) (R486, R487). -/
def lineStep (s : State) (sel : Word) (l : EvLine) (t : Nat) : EvLine :=
  let hold := match l.wr with | some w => decide (w ≤ t) && decide (t ≤ w + 1) | none => false
  let o := if hold then l.out else if 2 ≤ t + 1 - l.since then sourceVal s (fld sel 7 0) (fld sel 15 8) t else l.out
  if o = l.out then l else { l with out := o, since := t + 1 }

/-- Let a line follow its source for the d sclk that begin at the current one; after eight the line stands. Counter bits that change
within a span are seen as they stand at its start (notes/assumptions/9.md). -/
def lineSpan (s : State) (d n : Nat) : State :=
  let sel := s.rg (kSel n)
  let l0 := smGetD s.obs.lines n EvLine.rest
  if sel = 0 ∧ l0.out = false then s
  else
    let l := (List.range (min d 8)).foldl (fun l i => lineStep s sel l (s.now + i)) l0
    { s with obs := { s.obs with lines := smSet s.obs.lines n l EvLine.rest } }

/-- All lines. -/
def linesSpan (s : State) (d : Nat) : State := (List.range 16).foldl (fun s n => lineSpan s d n) s

/-- A `SELn` write whose value is allowed (R487). -/
def selOp (s : State) (n : Nat) (d : Word) : State :=
  let v := d &&& 0xFFFF#32
  if s.rg (kSel n) = v then s
  else
    let l := smGetD s.obs.lines n EvLine.rest
    { (s.rgSet (kSel n) v) with obs := { s.obs with lines := smPut s.obs.lines n { l with wr := some s.now } } }

/-- EVT.LEVEL as read. -/
def evtLevel (s : State) : Word :=
  BitVec.ofNat 32 (((List.range 16).filter fun n => (smGetD s.obs.lines n EvLine.rest).out).map (2 ^ ·)).sum

end Sys2Proof.Machine
end

