-- ==== Sys2Proof/Machine/Serve.lean ====
section
/-!
DEFINITION. Stages 11 and 12 of the check order and what serves a request that passes them (02_fabric_interface.md R65, R66;
01_architecture.md R31; 04_thallus.md R136, R500; 08_accumulation.md R246, R247; 10_update_engines.md R277; 12_coherence.md R331, R339;
17_arbiter_unscheduled.md R462).
-/

namespace Sys2Proof.Machine

/-- A writeback of a core. -/
def isWb (op : Nat) : Bool := op == 7 || op == 8

/-- A request that acts on memory: everything but `NOP`, register accesses and `AT_VACC`. -/
def isMemOp (op : Nat) : Bool := op != 0 && op != 0x30 && op != 0x31 && op != 0x1E

/-- UPD.STATUS.READY and ACC.STATUS.READY (08 R250). -/
def engReady (s : State) : Bool := engOn s && s.acc.ready

/-- The request, checked against this region, is served by the cache and the directory (01 R26; 03 R105). -/
def atHome (rg : Option Region) (h : BitVec 256) : Bool :=
  let op := hOpcode h
  isMemOp op && (isSetWay op || hSpace h == 1 || (rg.map (·.mode) == some 1 && op != 0x28 && op != 0x29))

/-- Stage 11: the power domain of the serving block (01 R31; 04 R136). -/
def stage11 (s : State) (h : BitVec 256) : Option Nat :=
  let op := hOpcode h
  if (isAtomic op || op == 0x1E) && !engOn s then some nackPwr
  else if isMemOp op && !isSetWay op && hSpace h == 0 && !(op == 0x28 && pAbort h) && !(thallusAwake s && t9Awake s) then some nackPwr
  else none

/-- The request would enter the blocked queue (12 R331). -/
def wouldBlock (s : State) (h : BitVec 256) : Bool := homeOrder s h == 3

/-- Lanes an `AT_VACC` names. -/
def vaccLanes (h : BitVec 256) (stats : Bool) : Nat := if stats then 2 * vaccElems h else vaccElems h

/-- Stage 12 of an `AT_VACC` (08 R246). -/
def vaccReady (s : State) (h : BitVec 256) : Option Nat :=
  if !s.acc.ready || decide (16 ≤ s.fab.reqs.countP fun e => e.2.phase == .vacc) then some nackBusy
  else
    match getGroup s (vaccGroup h) with
    | none => some nackFrame
    | some g =>
      -- once the faulted frame's guard has begun, nothing is accepted until a frame runs (R226)
      let late := s.frm.faulted && (s.frm.haltAt.isNone ||
        (match s.frm.frame0 with | some f => decide (f + period s ≤ s.now + 64) | none => true))
      if g.st ≠ 2 ∨ late then some nackFrame
      else if vaccLane h < g.lane ∨ g.lane + g.lanes < vaccLane h + vaccLanes h g.stats ∨ (g.stats ∧ (vaccLane h - g.lane) % 2 = 1) then
        some nackRange
      else none

/-- The request table has no entry for the request (12 R339). -/
def tableFull (s : State) (h : BitVec 256) : Bool :=
  if isWb (hOpcode h) then decide (64 ≤ tableUsed s) else decide (56 ≤ tableUsed s)

/-- Stage 12 behind the request table: readiness, queue and frame state (01 R31; 10 R277; 12 R331; 06 R195). -/
def stage12 (s : State) (rg : Option Region) (h : BitVec 256) : Option Nat :=
  let op := hOpcode h
  if atHome rg h && (!s.cch.ready || (!s.dir.ready && !isSetWay op)) then some nackBusy
  else if (isMemOp op || op == 0x1E) && !isSetWay op && hSpace h == 0 && !(op == 0x28 && pAbort h) && initBusy s then some nackBusy
  else if isAtomic op && !engReady s then some nackBusy
  else if op = 0x1E then vaccReady s h
  else if op = 0x28 ∧ pAbort h = false ∧ 8 ≤ pullsOpen s then some nackBusy
  else if atHome rg h && !isSetWay op && !isWb op && wouldBlock s h && decide (32 ≤ s.dir.blocked.length) then some nackBusy
  else none

/-- A quench holds the request at stage 12 (17 R462): it came on REQ and needs a grant. Writebacks of cores need none (12 R335). -/
def quenchHolds (h : BitVec 256) (vc : Nat) : Bool :=
  vc == 0 && (isMemOp (hOpcode h) || hOpcode h == 0x1E) && !isWb (hOpcode h) && !(hOpcode h == 0x28 && pAbort h)

/-- Serve an accepted request for memory at the current sclk. -/
def serveMem (s : State) (slot : Nat) : State :=
  match getReq s slot with
  | none => s
  | some r =>
    let h := r.head
    let op := hOpcode h
    if isWb op then serveWb s slot
    else if op = 0x1E then { (setReq s slot { r with progress := max s.now r.progress, phase := .vacc }) with acc := { s.acc with vacc := s.acc.vacc ++ [slot] } }
    else if op = 0x28 then (if pAbort h then abortPull s slot h else openPull s slot h)
    else if op = 0x29 then openPush s slot h
    else if isSetWay op then homeServe s slot false
    else if atHome r.rgn h then homeArrive s slot
    else if isAtomic op then enqueueAtomic s slot r
    else if op = 5 ∨ op = 6 ∨ op = 0x26 then writeBacking s slot r (reqLine h).2 false
    else readBacking s slot r (reqLine h).2 false

/-- Resume a held request (17 R462): its checks of stage 12 are made in the sclk after the release is decoded, or when it reaches the stage
after that, so that the arbiter's next decision sees it (02 R74). -/
def resumeOne (s0 : State) (slot : Nat) : State :=
  match getReq s0 slot with
  | none => s0
  | some r =>
    let s := { s0 with now := min s0.now (max (s0.fab.release + 1) (r.arrived + 7)) }
    let s1 := match stage12 s r.rgn r.head with
      | some c => finish s slot c 0 (s.now + 1)
      | none => serveMem (setReq s slot { r with phase := .home, progress := s.now + 1 }) slot
    { s1 with now := s0.now }

/-- Resume the held requests that have reached stage 12, in their order of arrival: the arbiter sees them from the second sclk after a
release (02 R66, R74; 17 R462). -/
def resumeHeld (s : State) : State :=
  if quenched s || decide (s.now < s.fab.release + 1) then s
  else
    ((sortBy (fun a b => decide (a.2.arrived ≤ b.2.arrived))
      (s.fab.reqs.filter fun e => e.2.phase == .held && pastStages s e.2)).map (·.1)).foldl resumeOne s

/-! ### Grants of vectors (08 R247) -/

/-- The accumulator bank is claimed by the program in sclk x. -/
def bankClaimed (s : State) (b x : Nat) : Bool :=
  s.frm.runs && unhalted s x &&
    ((programClaims (penvOf s) (actEnts s) (hdrCount (actEnts s 0))).any fun c =>
      c.cls == 3 && c.what % nBanks s.straps.build == b && frameAt s c.t == x)

/-- A slot of an accumulator bank is taken, by the program or by the add of a vector (10 R269; 08 R247). -/
def bankBusy (s : State) (b x : Nat) : Bool :=
  bankClaimed s b x || smGet s.acc.lastAdd b == some x || s.acc.adds.any fun a => laneBank s a.lane == b && a.sclk == x

/-- Claims of the program on accumulator banks in the current frame that are still to come: bank and sclk. -/
def bankClaims (s : State) : List (Nat × Nat) :=
  if s.frm.runs then
    ((programClaims (penvOf s) (actEnts s) (hdrCount (actEnts s 0))).filter fun c =>
      c.cls == 3 && decide (s.now < frameAt s c.t) && unhalted s (frameAt s c.t)).map fun c =>
        (c.what % nBanks s.straps.build, frameAt s c.t)
  else []

/-- The first sclk at which a vector of this source may add into a lane: behind the adds already granted to the source's earlier vectors
(R247). -/
def vaccFrom (s : State) (src : Nat × Nat × Nat) (lane : Nat) : Nat :=
  s.acc.adds.foldl (fun m a =>
    if a.lane = lane ∧ (match getReq s a.slot with | some r => hSrc r.head == src | none => false) = true then max m (a.sclk + 1) else m)
    (s.now + 1)

/-- Slots of a vector's adds, the earliest free one of each lane's bank; none when some add finds none by `last`. -/
def vaccSlots (s : State) (src : Nat × Nat × Nat) (lanes : List Nat) (last : Nat) : Option (List Nat) :=
  let nb := nBanks s.straps.build
  let busy := bankClaims s ++ s.acc.adds.map fun a => (a.lane % nb, a.sclk)
  lanes.foldl (fun (acc : Option (List (Nat × Nat) × List Nat)) lane =>
    match acc with
    | none => none
    | some (used, out) =>
      let b := lane % nb
      let mine := ((busy ++ used).filter fun x => x.1 == b).map (·.2)
      let a := vaccFrom s src lane
      ((List.range (last + 1 - a)).find? fun i => !mine.contains (a + i)).map
          fun i => ((b, a + i) :: used, out ++ [a + i])) (some ([], [])) |>.map (·.2)

/-- The last sclk at which a vector into the group may still add: the START of the group's close unless a fault or a quench keeps the
close from starting, and never a guard sclk (01 R22; 08 R226, R247). -/
def vaccLast (s : State) (g : GroupSt) : Nat :=
  match s.frm.frame0 with
  | some f =>
    let guard := f + period s - 65
    -- a close of an earlier frame that a quench kept from starting never comes
    if decide (f ≤ g.closeAt) && unhalted s (g.closeAt + 1) && unquenched s (g.closeAt + 1) then min g.closeAt guard else guard
  | none => s.now

/-- Grant one vector when all its adds find slots. -/
def grantVacc (s : State) (slot : Nat) : State :=
  match getReq s slot with
  | none => s
  | some r =>
    match getGroup s (vaccGroup r.head) with
    | none => s
    | some g =>
      let adds := vaccAddsOf r.head r.payload g.stats
      match vaccSlots s (hSrc r.head) (adds.map (·.1)) (vaccLast s g) with
      | none => s
      | some xs =>
        let new := (adds.zip xs).map fun a => (⟨a.2, a.1.1, vaccGroup r.head, slot, a.1.2.1, vaccFmt r.head, a.1.2.2.1, a.1.2.2.2⟩ : VaccAdd)
        progressed { s with acc := { s.acc with vacc := s.acc.vacc.filter (· != slot), adds := s.acc.adds ++ new } } slot

/-! ### The debug view of a lane (08 R251) -/

/-- Image that the debug view shows: an uncorrectable word counts and is logged, and shows the poisoned zero image, which the view does not
store (R249, R251; DESIGN CHOICE, notes/assumptions/56.md). -/
def laneView (s : State) (lane : Nat) : State × LaneBits :=
  let (s1, u0) := sramRead s 15 0 (2 * lane)
  let (s2, u1) := sramRead s1 15 0 (2 * lane + 1)
  if u0 = some true ∨ u1 = some true then (logErr s2 0x07 2 (mkFld 13 0 lane), laneBits { laneOf 0 with poison := true })
  else (s2, laneImage s2 lane)

/-- Word 0 of the lane that ACC.DBG_LANE names, words 1-3 held for the reads that follow. -/
def laneView0 (s : State) : State × Word :=
  let (s1, img) := laneView s (s.rf (rk 0x07 0x070) 13 0)
  ({ s1 with acc := { s1.acc with dbgHold := some (img.extractLsb' 32 32, img.extractLsb' 64 32, img.extractLsb' 96 32) } }, img.extractLsb' 0 32)

/-- The bank of the lane that ACC.DBG_LANE names is free in sclk x. -/
def viewFree (s : State) (x : Nat) : Bool := !bankBusy s (laneBank s (s.rf (rk 0x07 0x070) 13 0)) x

/-- Reads of ACC.DBG_DATA0 that wait are made in the first free slot of the bank that has come by sclk t, behind the adds of the slots before. -/
def laneReads (s0 : State) (t : Nat) : State :=
  (s0.fab.reqs.filter fun e => e.2.phase == .laneRead).foldl (fun s e =>
    match (List.range (t + 1 - e.2.progress)).find? fun i => viewFree s (e.2.progress + i) with
    | some i =>
      let x := e.2.progress + i
      let (s1, w) := laneView0 (applyAdds s (x - 1))
      finish s1 e.1 ok w.toNat (x + 1)
    | none => s) s0

/-- Lanes a vector adds into. -/
def vaccOver (s : State) (r : Req) : List Nat :=
  match getGroup s (vaccGroup r.head) with
  | some g => (vaccAddsOf r.head r.payload g.stats).map (·.1)
  | none => []

/-- Grant what can be granted, oldest first; a vector waits for an earlier one of its source whose lanes it overlaps (R247; 17 R454). -/
def vaccGrantOp (s : State) : State :=
  (s.acc.vacc.foldl (fun (a : State × List ((Nat × Nat × Nat) × List Nat)) slot =>
    match getReq a.1 slot with
    | none => a
    | some r =>
      if !pastStages a.1 r || decide (a.1.now < r.progress) || quenchHides a.1 r then a
      else
        let mine := (hSrc r.head, vaccOver a.1 r)
        if a.2.any fun w => w.1 == mine.1 && w.2.any mine.2.contains then (a.1, mine :: a.2)
        else
          let s1 := grantVacc a.1 slot
          if s1.acc.vacc.contains slot then (s1, mine :: a.2) else (s1, a.2)) (s, [])).1

/-- Vectors that are not granted when the first guard sclk of a faulted frame begins are refused (R247; 04 R118). -/
def vaccGuard (s : State) : State := if s.frm.haltAt.isSome then s.acc.vacc.foldl vaccRefuse s else s

end Sys2Proof.Machine
end

