-- ==== Sys2Proof/Machine/Settle.lean ====
section
/-!
DEFINITION. The passage of time: what the clock alone brings about, which every command lets happen before it acts
(notes/assumptions/1.md).
-/

namespace Sys2Proof.Machine

/-- Direct accesses of the host agent that have had no answer within the C-net response timeout (11 R301, R305). -/
def hostTimeouts (s : State) : State :=
  (s.cch.host.filter fun o => decide (o.since + cnetLimit s o.since ≤ s.now)).foldl (fun s o => hostDone s o.slot nackTmo none) s

/-- Unscheduled work that a sleeping tier ends (06 R203). -/
def sleepers (s : State) : State := if thallusAwake s && t9Awake s then s else pushSleep (pullSleep s)

/-- INTs for the slice's own SMC are delivered while it runs (02 R67). -/
def smcDeliver (s : State) : State :=
  if smcRuns s then
    let due := s.fab.smcInts.filter fun i => decide (i.2.2 ≤ s.now)
    { s with fab := { s.fab with
      smcInts := s.fab.smcInts.filter fun i => decide (s.now < i.2.2), smcSeen := s.fab.smcSeen ++ due.map fun i => (i.1, i.2.1) } }
  else s

/-- Register writes whose rules fix a later response are answered; `progress` holds the sclk (02 R66; 03 R103; 10 R273; 14 R380). -/
def regAnswers (s : State) : State :=
  (s.fab.reqs.filter fun e => e.2.phase == .regWait && decide (e.2.progress ≤ s.now)).foldl (fun s e => finish s e.1 ok 0 e.2.progress) s

/-- The packet is the attempt of this INT that waits to leave. -/
def isIntPkt (i : IntTxn) (o : OutPkt) : Bool := o.vc == 0 && hOpcode o.head == 0x38 && i.txn == some (hTxn o.head)

/-- An attempt of an INT fails at sclk `at_`; the fourth failure loses it (02 R67). A packet of the attempt that still waits to leave is
withdrawn, so that one packet leaves for each attempt (DESIGN CHOICE, notes/assumptions/35.md). -/
def intFailed (s : State) (i : IntTxn) (at_ : Nat) : State :=
  let fab : FabricSt := { s.fab with ints := s.fab.ints.erase i, out := s.fab.out.filter fun o => !isIntPkt i o }
  if 4 ≤ i.attempts then logErr { s with fab := fab } 0x00 8 (mkFld 7 0 i.vector + mkFld 12 8 i.page)
  else { s with fab := { fab with ints := fab.ints ++ [{ i with txn := none, failedAt := some at_ }] } }

/-- An EVT that no answer has met within the C-net response timeout is given up: its TXN is free again (02 R67; notes/assumptions/7.md). -/
def evtTimeouts (s : State) : State :=
  { s with fab := { s.fab with evts := s.fab.evts.filter fun e => decide (s.now < e.since + cnetLimit s e.since) } }

/-- Attempts of INTs that no answer has met within the C-net response timeout fail (02 R67). -/
def intTimeouts (s : State) : State :=
  (s.fab.ints.filter fun i => i.failedAt.isNone && decide (i.since + cnetLimit s i.since ≤ s.now)).foldl (fun s i => intFailed s i (i.since + cnetLimit s i.since)) s

/-- The answer to an `MT_CLINV_SW` that Torif sent: done, the next set is due, else the same one again (14 R392). -/
def waySwept (s : State) (o : OutPkt) : State :=
  match s.spr.wayOut with
  | some (w, set, true) =>
    if hOpcode o.head = 0x50 ∧ hTxn o.head = 0x21 then
      { s with spr := { s.spr with wayOut := some (w, if hResp o.head ≤ 1 then set + 1 else set, false) } }
    else s
  | _ => s

/-- A packet for the SMC arrives over its local port: the data of a FRAME_COPY is loaded, its completion kept, and what no copy waits for is
dropped (15 R395, R419). -/
def smcTake (s : State) (o : OutPkt) : State :=
  let s0 : State := answerLeft { s with fab := { s.fab with out := s.fab.out.erase o } } o
  let s1 := match o.pull with
    | some c => if hOpcode o.head = 0x58 then pullSent s0 c o else s0
    | none => waySwept s0 o
  match s1.frm.copy with
  | some cp =>
    if cp.code.isSome || hTxn o.head != 0x20 then s1
    else if hOpcode o.head = 0x50 then { s1 with frm := { s1.frm with copy := some { cp with code := some (hResp o.head) } } }
    else
      let ws := (o.payload.flatMap fun d => (List.range 8).map fun i => d.data.extractLsb' (32 * i) 32).take cp.left
      let s2 := ws.foldl (fun s w => (loadWriteOp s w).1) s1
      { s2 with frm := { s2.frm with copy := s2.frm.copy.map fun x => { x with left := x.left - ws.length } } }
  | none => s1

/-- Packets for the SMC that are ready arrive there, in their order. -/
def smcReceive (s : State) : State := (s.fab.out.filter fun o => toSmc s o && decide (o.readyAt ≤ s.now)).foldl smcTake s

/-- Work of LOGIC that falls due by the current sclk. -/
def logicDue (s : State) : State :=
  leaveHeads <| resumeHeld (passBehind <| regAnswers <| smcReceive <| smcDeliver (sleepers (evtTimeouts <| intTimeouts <| hostTimeouts (sprNowStep (mapNowStep (rgnNowStep (applyAdds (laneReads (runFlights 64 s) s.now) s.now)))))))

/-- Everything that falls due by the current sclk. -/
def settle (s : State) : State :=
  let s1 := returnCredits s
  let s2 := if logicRuns s1 && !failed s1 then logicDue s1 else s1
  logicUpStep (retainStep (orderedStep s2))

/-- Counters and event lines over d sclk (18 R465, R486). -/
def span (s : State) (d : Nat) : State := if logicRuns s then linesSpan (pmuCount s (s.now + d)) d else s

/-- Barriers whose time is over before sclk `t` fault, the earliest at its last sclk (05 R177, R179). -/
def barriersDue (s : State) (t : Nat) : State :=
  match sortBy (fun (a b : Nat × Nat × Nat) => decide (a.2.2 ≤ b.2.2)) (s.frm.barriers.filter fun b => decide (b.2.2 < t)) with
  | b :: _ => barrierFault { s with now := b.2.2 } b
  | [] => s

/-- One event of a frond at its sclk, after the unscheduled accesses and adds of the slots up to it (01 R27; 09 R254). -/
def frondEvent (s : State) (e : Nat × Nat) : State :=
  if failed s then s
  else
    let s1 := { barriersDue s e.1 with now := e.1 }
    runFrond { applyAdds (laneReads (runFlights 64 s1) (e.1 - 1)) e.1 with now := e.1 } e.2

/-- The events of the running frame's fronds that fall before sclk `t` happen, each at its sclk (01 R24; notes/assumptions/20.md). -/
def frondsDue (s : State) (t : Nat) : State :=
  if s.frm.runs && logicRuns s && !failed s then { barriersDue ((owed s t).foldl frondEvent s) (t - 1) with now := s.now }
  else s

/-- What has happened when the clock reaches sclk `t`: the fronds have had their events, counters and lines follow, then what fell due happens.
With an idle sclk the S-net receiver finds its footing (02 R69). -/
def passage (s0 : State) (t : Nat) : State :=
  let d := t - s0.now
  if d = 0 then settle s0
  else
    let s := frondsDue s0 t
    let s1 := tickTo (span s d) t
    settle { s1 with fab := { s1.fab with footing := s1.fab.footing && !logicRuns s1 } }

/-- The clock reaches sclk `t`; a time that has passed is the current one. The straps are pins, which time does not change (16 R446). -/
def advance (s : State) (t : Nat) : State := { passage s t with now := max s.now t, straps := s.straps }

/-! ### The S-net input (02 R68-R74) -/

/-- A message is discarded (02 R69, R70). -/
def snetErr (s : State) (typ : Nat) (chk framing : Bool) : State :=
  logErr s 0x00 9 (mkFld 3 0 typ + mkFld 4 4 (b2n chk) + mkFld 5 5 (b2n framing))

/-- The argument carries a reserved value, or the message only travels out of the slice (02 R70). -/
def snetReserved (typ arg : Nat) : Bool :=
  match typ with
  | 1 => decide (arg / 2 ^ 16 ≠ 0)
  | 3 => decide (arg / 2 ^ 12 ≠ 0)
  | 4 => !(arg == 1 || arg == 2)
  | 6 => decide (arg / 2 ^ 12 ≠ 0) || decide (arg / 256 % 16 = 0) || decide (10 < arg / 256 % 16)
  | 7 => decide (arg / 2 ^ 12 ≠ 0) || decide (arg / 256 % 16 = 0) || decide (7 < arg / 256 % 16)
  | _ => true

/-- What an accepted message does; beat 0 came in sclk `t`, and beat 1 is at the input in the current one. A tick starts its frame, and a
grant acts, in the sclk after that (R72; 16 R430). -/
def snetAct (s : State) (t typ arg : Nat) : State :=
  match typ with
  | 1 => if failed s then s else tickOp (advance s (t + 2)) arg
  | 3 => if failed s then s else barReleaseOp s arg
  | 4 => if failed s then s else if arg = 1 then quenchOp s else quenchReleaseOp s
  | 6 => if failed s || arg % 256 != s.straps.tile then s else wakeGntOp (advance s (t + 2)) (arg / 256)
  | _ => faultRxOp s (arg % 256) (arg / 256)

/-- A message of good framing and CHK whose beat 0 reaches the input at sclk `t`. While LOGIC does not run only the governor's grants act
(16 R423), and before the receiver has its footing nothing is parsed (R69). In fail-stop a reserved TYPE or argument is logged for a FAULT
alone, whose parsing goes on (R77; DESIGN CHOICE, notes/assumptions/52.md). -/
def snetIn (s : State) (t typ arg : Nat) : State :=
  let a := advance s t
  let deaf := a.fab.footing && logicRuns a
  let b := advance a (t + 1)
  if a.straps.fused || a.pwr.porst || deaf then b
  else if !logicRuns a then
    (if typ = 6 ∧ snetReserved typ arg = false ∧ arg % 256 = b.straps.tile then wakeGntOp (advance b (t + 2)) (arg / 256) else b)
  else if snetReserved typ arg then (if typ = 7 ∨ failed b = false then snetErr b typ false false else b)
  else snetAct b t typ arg

/-- A beat pair at the input, beat 0 in sclk `t` (R69). -/
def snetPair (s : State) (t : Nat) (beat0 beat1 : BitVec 16) : State :=
  let a := advance s t
  let typ := fld beat0 14 11
  let chk := (List.range 4).foldl (fun c i => c ^^^ fld beat0 (4 * i + 3) (4 * i) ^^^ fld beat1 (4 * i + 3) (4 * i)) 0
  if !bit beat0 15 then
    { a with fab := { a.fab with footing := a.fab.footing && !logicRuns a } }
  else if a.fab.footing && logicRuns a then
    let b := advance a (t + 1)
    if bit beat1 15 then { b with fab := { b.fab with footing := true } } else b
  else if !logicRuns a then snetIn s t (if bit beat1 15 || chk != 0 then 0 else typ) (fld beat0 10 0 * 2048 + fld beat1 14 4)
  else if bit beat1 15 then snetErr (advance a (t + 1)) typ false true
  else if chk ≠ 0 then snetErr (advance a (t + 1)) typ true false
  else snetIn s t typ (fld beat0 10 0 * 2048 + fld beat1 14 4)

end Sys2Proof.Machine
end

