-- ==== Sys2Proof/Machine/RegRead.lean ====
section
/-!
DEFINITION. What a register read returns and does (00_scope.md R9-R17; 19_register_pages.md R491-R496 and the register tables of each
chapter). Registers whose words follow from other state are views computed here.
-/

namespace Sys2Proof.Machine

/-- Outcome of a register access: the state after it, the response code, the sclk of the response counted from the header, and the word read. -/
structure RegAns where
  /-- State after the access. -/
  st : State
  /-- Response code. -/
  code : Nat
  /-- Delay of the response (02_fabric_interface.md R66). -/
  delay : Nat
  /-- Word read. -/
  word : Word
deriving DecidableEq, Repr

/-- An access answered with `code` at the usual sclk, without an effect. -/
def RegAns.nack (s : State) (code : Nat) : RegAns := ⟨s, code, 8, 0⟩
/-- A read that returns a word. -/
def RegAns.read (s : State) (w : Word) : RegAns := ⟨s, ok, 8, w⟩
/-- A write that is done. -/
def RegAns.done (s : State) : RegAns := ⟨s, ok, 8, 0⟩

/-- Page of a register request (03_addressing_regions.md R86). -/
def rPage (h : BitVec 256) : Nat := fld h 112 108
/-- Its offset. -/
def rOfs (h : BitVec 256) : Nat := fld h 107 96

/-! ### Views -/

/-- PAGE_STATUS of a page (00 R16). -/
def pageStatus (s : State) (page : Nat) : Word :=
  let on := if page = 0x06 ∨ page = 0x07 then engOn s else if page = 0x0C ∨ page = 0x0D then smcOn s else true
  BitVec.ofNat 32 (1 + mkFld 1 1 (b2n on) + mkFld 2 2 (b2n (errPending s page)))

/-- SLC.ID. -/
def slcId (s : State) : Word := BitVec.ofNat 32 (mkFld 14 0 s.straps.chip + mkFld 22 15 s.straps.tile)

/-- Code of a frame engine state (05 R183). -/
def fstateCode : FState → Nat
  | .idle => 0 | .running => 1 | .stopped => 2 | .resync => 3 | .quenched => 4 | .failed => 5

/-- Code of INACT. -/
def halfCode : HalfSt → Nat | .empty => 0 | .opened => 1 | .validating => 2 | .pending => 3

/-- FRM.STATUS (05 R183). While the slice is halted STATE reads STOPPED or IDLE (18 R475), as the engine's state then is. -/
def frmStatus (s : State) : Word :=
  BitVec.ofNat 32 (mkFld 2 0 (fstateCode s.frm.state) + mkFld 3 3 s.frm.activeHalf + mkFld 4 4 (b2n s.frm.active.isSome)
    + mkFld 6 5 (halfCode s.frm.inact) + mkFld 7 7 (b2n s.frm.wakeWait) + mkFld 8 8 (b2n s.frm.loadedV) + mkFld 9 9 (b2n s.frm.execV))

/-- THL.REF_STATUS (04 R142). ROUNDS follows the reserve at reset too, where it reads 1 (DESIGN CHOICE, notes/assumptions/53.md). -/
def refStatus (s : State) : Word :=
  BitVec.ofNat 32 (mkFld 10 0 s.thl.refRow + mkFld 11 11 (b2n s.thl.catchup) + mkFld 15 12 (min 15 (reserve s / 192)))

/-- THL.REF_PASS_CUR: elapsed units of 1,024 sclk; retention stops the timer (04 R132). -/
def refPassCur (s : State) : Word := BitVec.ofNat 32 (((match s.thl.passHeld with | some h => h | none => s.now) - s.thl.passStart) / 1024)

/-- CCH.STATUS (11 R318). -/
def cchStatus (s : State) : Word :=
  BitVec.ofNat 32 (b2n s.cch.ready + mkFld 7 1 s.cch.fills.length + mkFld 11 8 (wbUsed s) + mkFld 14 12 (pfOut s))

/-- DIR.STATUS (12 R345). -/
def dirStatus (s : State) : Word :=
  BitVec.ofNat 32 (b2n s.dir.ready + mkFld 6 1 s.dir.blocked.length + mkFld 7 7 (b2n (s.dir.sweep != 0))
    + mkFld 16 8 ((dirWays s).map (2 ^ ·)).sum + mkFld 23 17 (s.dir.txns.countP fun t => decide (t.1 < 64)))

/-- UPD.STATUS (10 R294). -/
def updStatus (s : State) : Word :=
  BitVec.ofNat 32 (b2n (engReady s) + mkFld 1 1 (b2n s.upd.mapAt.isSome) + mkFld 7 2 (s.rf (rk 0x06 0x048) 7 2))

/-- A written SAT value of a page waits for frame sclk 0 (07 R218; 08 R252). -/
def satPending (s : State) (page : Nat) (f w : Bool) : Bool := s.rb (rk page 0x040) 0 != f || s.rb (rk page 0x040) 1 != w

/-- ACC.STATUS (08 R252). -/
def accStatus (s : State) : Word :=
  BitVec.ofNat 32 (b2n s.acc.ready + mkFld 1 1 (b2n (satPending s 0x07 s.acc.satFp8 s.acc.satWide)) + mkFld 2 2 (b2n s.acc.satFp8)
    + mkFld 3 3 (b2n s.acc.satWide) + mkFld 14 8 s.acc.groups.length)

/-- DEC.STATUS (07 R222). -/
def decStatus (s : State) : Word :=
  BitVec.ofNat 32 (b2n s.dec.satFp8 + mkFld 1 1 (b2n s.dec.satWide) + mkFld 2 2 (b2n (satPending s 0x08 s.dec.satFp8 s.dec.satWide)))

/-- EGRESS fronds of the running frame that hold an egress context: from START to START + LEAD + BEATS - 1 (07 R204). -/
def egrUsed (s : State) : Nat :=
  let ents := actEnts s
  if s.frm.active.isNone || !s.frm.runs || !unhalted s s.now then 0
  else (List.range (hdrCount (ents 0))).countP fun i =>
    let e := ents (i + 1)
    eKind e == 1 && unquenched s (frameAt s (eStart e)) && decide (frameAt s (eStart e) ≤ s.now)
      && decide (s.now < frameAt s (eStart e + eLead e + eBeats e))

/-- DEC.CTX. -/
def decCtx (s : State) : Word := BitVec.ofNat 32 (mkFld 3 0 (min (egrUsed s) 8) + mkFld 11 8 s.dec.pulls.length)

/-- RAS.STICKY_SUM (13 R361). -/
def stickySum (s : State) : Word := BitVec.ofNat 32 (((List.range 18).filter fun p => s.rg (rk p 0x010) != 0).map (2 ^ ·)).sum

/-- SPR.CAM_SEL: TIER and the valid active entries of that tier. -/
def camSel (s : State) : Word :=
  let t := s.rf (rk 0x0A 0x04C) 3 0
  BitVec.ofNat 32 (t + mkFld 22 16 ((List.range 64).countP fun n => bit (camAct s t n) 31))

/-- SPR.REBUILD_STATUS. -/
def rebuildStatus (s : State) : Word :=
  BitVec.ofNat 32 (mkFld 2 0 (rebuildCode s.spr.rebuild) + mkFld 7 4 s.spr.pos + mkFld 8 8 (b2n s.spr.serves))

/-- ARB.STATUS (17 R463). -/
def arbStatus (s : State) : Word :=
  let forced := ((List.range 10).filter (isForced s)).map (2 ^ ·)
  let groups := (List.range 4).filter fun g => (holdersOf s).any fun x => (needGroups s x.2).contains g
  BitVec.ofNat 32 (forced.sum + (groups.map fun g => 2 ^ (10 + g)).sum + mkFld 16 16 (b2n (quenched s)))

/-- The counters at the end of the current sclk, in which a read of them samples (18 R465). -/
def pmuAt (s : State) : State := pmuCount s (s.now + 1)

/-- A counter word of page PMU: its counter, 8 for the cycle counter, and whether it is the high word. -/
def pmuWord (ofs : Nat) : Option (Nat × Bool) :=
  if ofs = 0x04C then some (8, false)
  else if ofs = 0x050 then some (8, true)
  else if inArr ofs 0x084 16 8 then some ((ofs - 0x084) / 16, false)
  else if inArr ofs 0x088 16 8 then some ((ofs - 0x088) / 16, true)
  else none

/-- A register whose read only looks: the word it returns. -/
def viewWord (s : State) (page ofs : Nat) : Word :=
  let w := s.rg (rk page ofs)
  if ofs = 0x00C then pageStatus s page
  else match page with
    | 0x00 => if ofs = 0x040 then slcId s else if ofs = 0x044 then slcStatus s else w
    | 0x01 => if ofs = 0x044 then frmStatus s else w
    | 0x02 =>
      if ofs = 0x040 then BitVec.ofNat 32 (b2n s.rgn.pending)
      else if ofs = 0x044 then setFld (setFld w 0 0 (b2n s.rgn.pending)) 1 1 (b2n s.rgn.checking)
      else if ofs = 0x04C then BitVec.ofNat 32 (goodTiles s).length
      else if inArr ofs 0x050 4 8 then s.straps.good.extractLsb' (8 * (ofs - 0x050)) 32
      else w
    | 0x03 => if ofs = 0x050 then refStatus s else if ofs = 0x058 then refPassCur s else w
    | 0x04 => if ofs = 0x048 then cchStatus s else w
    | 0x05 => if ofs = 0x048 then dirStatus s else w
    | 0x06 => if ofs = 0x048 then updStatus s else if ofs = 0x04C then BitVec.ofNat 32 (b2n s.upd.mapAt.isSome) else w
    | 0x07 =>
      if ofs = 0x048 then accStatus s
      else if inArr ofs 0x100 4 (nGroups s.straps.build) then grpStat s ((ofs - 0x100) / 4)
      else w
    | 0x08 => if ofs = 0x044 then decStatus s else if ofs = 0x050 then decCtx s else w
    | 0x09 =>
      if ofs = 0x048 then stickySum s
      else if inArr ofs 0x104 8 (nDomains s.straps.build) then (applyLeaks s ((ofs - 0x104) / 8)).rg (rk page ofs)
      else w
    | 0x0A =>
      if ofs = 0x044 then BitVec.ofNat 32 (b2n s.spr.pending)
      else if ofs = 0x048 then setFld (setFld w 0 0 (b2n s.spr.pending)) 1 1 (b2n s.spr.checking)
      else if ofs = 0x04C then camSel s
      else if ofs = 0x050 then fillStatus s
      else if ofs = 0x058 then rebuildStatus s
      else if ofs = 0x05C then BitVec.ofNat 32 s.spr.front
      else if inArr ofs 0x094 4 8 then smGetD s.spr.laneShd ((ofs - 0x094) / 4) 0
      else if inArr ofs 0x0B4 4 8 then smGetD s.spr.laneAct ((ofs - 0x0B4) / 4) 0
      else if inArr ofs 0x100 4 64 then camShd s (s.rf (rk 0x0A 0x04C) 3 0) ((ofs - 0x100) / 4)
      else if inArr ofs 0x200 4 64 then camAct s (s.rf (rk 0x0A 0x04C) 3 0) ((ofs - 0x200) / 4)
      else w
    | 0x0B =>
      if ofs = 0x044 then domainStatus s else if ofs = 0x04C then tierStates s else if ofs = 0x05C then govStatus s else w
    | 0x0C => if ofs = 0x040 then mbxDoorbell s false else if ofs = 0x050 then mbxSeq s.mbn else if ofs = 0x054 then mbxStatus s false else w
    | 0x0D => if ofs = 0x040 then mbxDoorbell s true else if ofs = 0x050 then mbxSeq s.mbs else if ofs = 0x054 then mbxStatus s true else w
    | 0x0E =>
      if ofs = 0x04C then arbStatus s
      else if inArr ofs 0x100 4 10 then setFld w 15 0 (waitOf s ((ofs - 0x100) / 4))
      else w
    | 0x0F =>
      match pmuWord ofs with
      | some (n, hi) => (pmuAt s).rg (if hi then pmuHi n else pmuLo n)
      | none => w
    | 0x10 => if ofs = 0x044 then dbgStatus s else if ofs = 0x054 then trcStatus s else w
    | 0x11 => if ofs = 0x048 then evtLevel s else w
    | _ => w

/-! ### Reads that act -/

/-- A register that only debug mode gives access to (18 R474). -/
def debugOnly (page ofs : Nat) : Bool :=
  match page with
  | 0x04 => inArr ofs 0x08C 4 2
  | 0x05 => inArr ofs 0x078 4 4
  | 0x07 => inArr ofs 0x074 4 4
  | 0x09 => ofs == 0x08C
  | 0x10 => ofs == 0x048 || inArr ofs 0x060 4 4
  | _ => false

/-- The selected way of CCH.DBG_SEL. -/
def dbgWay (s : State) : CWay := getWay s (s.rf (rk 0x04 0x088) 8 0) (s.rf (rk 0x04 0x088) 15 12)

/-- Tag word of the selected way with its MRU bit, as bits [63:32] and [31:0]; a tag that is uncorrectable comes as read (11 R318). -/
def dbgTag (s : State) : State × Word × Word :=
  let w := dbgWay s
  let (s1, bad) := plainRead s 13 0 (s.rf (rk 0x04 0x088) 8 0 * 12 + s.rf (rk 0x04 0x088) 15 12)
  let t := asRead bad (tagWord w)
  (s1, setFld (t.extractLsb' 32 32) 12 12 (b2n w.mru), t.extractLsb' 0 32)

/-- CCH.DBG_TAG_LO and DBG_TAG_HI: the low word holds the high one (11 R318). -/
def readDbgTag (s : State) (hi : Bool) : RegAns :=
  if hi then
    match s.cch.dbgHold with
    | some w => RegAns.read s w
    | none => let (s1, h, _) := dbgTag s; RegAns.read s1 h
  else
    let (s1, h, l) := dbgTag s
    RegAns.read { s1 with cch := { s1.cch with dbgHold := some h } } l

/-- A word of the directory that the debug view reads: an uncorrectable one forces fail-stop (12 R341). -/
def dirWordRead (s : State) (set way sub : Nat) : State :=
  match sramRead s 14 sub (set * 9 + way) with
  | (s1, some true) => dirUe s1 set way sub
  | (s1, _) => s1

/-- Tag and state words of the selected directory entry: tag low, tag high, state low, state high (12 R345). -/
def dbgDir (s : State) : State × Word × Word × Word × Word :=
  let set := s.rf (rk 0x05 0x074) 8 0
  let way := s.rf (rk 0x05 0x074) 15 12
  let (t, d) : BitVec 48 × BitVec 64 := match smGet s.dir.ents (set * 16 + way) with
    | some e => (dirTag e, dirState e (lineBusy s e.space e.x))
    | none => (0, 0)
  (dirWordRead (dirWordRead s set way 0) set way 1,
    t.extractLsb' 0 32, (t.extractLsb' 32 16).setWidth 32, d.extractLsb' 0 32, d.extractLsb' 32 32)

/-- DIR.DBG_TAG_LO (0), DBG_TAG_HI (1), DBG_STATE_LO (2), DBG_STATE_HI (3): the first holds the rest (12 R345). -/
def readDbgDir (s : State) (n : Nat) : RegAns :=
  if n = 0 then
    let (s1, a, b, c, d) := dbgDir s
    RegAns.read { s1 with dir := { s1.dir with dbgHold := some (b, c, d) } } a
  else
    match s.dir.dbgHold with
    | some (b, c, d) => RegAns.read s (if n = 1 then b else if n = 2 then c else d)
    | none => let (s1, _, b, c, d) := dbgDir s; RegAns.read s1 (if n = 1 then b else if n = 2 then c else d)

/-- ACC.DBG_DATAn while the lane's bank is free (08 R251). -/
def readDbgLane (s : State) (n : Nat) : RegAns :=
  if n = 0 then let (s1, w) := laneView0 s; RegAns.read s1 w
  else
    match s.acc.dbgHold with
    | some (a, b, c) => RegAns.read s (if n = 1 then a else if n = 2 then b else c)
    | none => let (s1, img) := laneView s (s.rf (rk 0x07 0x070) 13 0); RegAns.read s1 (img.extractLsb' (32 * n) 32)

/-- DBG.TRC_DATAn (18 R481). -/
def readTrc (s : State) (n : Nat) : RegAns :=
  if n = 0 then let (s1, w) := trcRead0 s; RegAns.read s1 w else let (s1, w) := trcReadN s n; RegAns.read s1 w

/-- A counter word of page PMU (00 R11): the low word's read keeps the high word for the next read of it. -/
def readPmu (s : State) (n : Nat) (hi : Bool) : RegAns :=
  let v := pmuAt s
  if hi then
    match smGet s.obs.hold (pmuLo n) with
    | some w => RegAns.read { s with obs := { s.obs with hold := smDel s.obs.hold (pmuLo n) } } w
    | none => RegAns.read s (v.rg (pmuHi n))
  else RegAns.read { s with obs := { s.obs with hold := smPut s.obs.hold (pmuLo n) (v.rg (pmuHi n)) } } (v.rg (pmuLo n))

/-- A block register of a mailbox page (15 R402, R403, R407). -/
def readMbx (s : State) (h : BitVec 256) (secure : Bool) : RegAns :=
  let src := hSrc h
  match rOfs h with
  | 0x04C => let (s1, w) := mbxLockRead s secure src; ⟨touchLock s1 secure src, ok, 9, w⟩
  | 0x05C => let (s1, c, w) := mbxPop s secure src; ⟨touchLock s1 secure src, c, if c ≤ 1 then 10 else 8, w⟩
  | ofs => ⟨touchLock s secure src, ok, 9, viewWord s (mbxPage secure) ofs⟩

/-! ### Power domains of block registers -/

/-- The offset holds a block register of page UPD or ACC that lies in the ENG domain (19 R495, R496). -/
def engReg (b : Build) (page ofs : Nat) : Bool :=
  match page with
  | 0x06 => (decide (0x040 ≤ ofs) && decide (ofs ≤ 0x0B4) && !(ofs == 0x05C || ofs == 0x060 || ofs == 0x064 || ofs == 0x068)) ||
      (decide (0x200 ≤ ofs) && decide (ofs < 0x600) && decide ((ofs - 0x200) % 0x40 ≤ 0x20))
  | 0x07 => (decide (0x040 ≤ ofs) && decide (ofs ≤ 0x080)) || inArr ofs 0x100 4 (nGroups b)
  | _ => false

/-- The register's power domain is off (00 R15; 15 R397; 19 R495). -/
def regOff (s : State) (page ofs : Nat) : Bool :=
  (engReg s.straps.build page ofs && !engOn s) ||
    ((page == 0x0C || page == 0x0D) && decide (0x054 ≤ ofs) && decide (ofs ≤ 0x060) && !smcOn s)

/-- A register read that has passed stages 1-11, at stage 12. -/
def regRead (s : State) (h : BitVec 256) : RegAns :=
  let page := rPage h
  let ofs := rOfs h
  if debugOnly page ofs && !debugMode s then RegAns.nack s nackPerm
  else if ofs < 0x040 then
    (if page = 0x0C ∨ page = 0x0D then RegAns.read (touchLock s (page = 0x0D) (hSrc h)) (viewWord s page ofs) else RegAns.read s (viewWord s page ofs))
  else match page with
    | 0x01 => if ofs = 0x060 then let (s1, w) := loadReadOp s; RegAns.read s1 w else RegAns.read s (viewWord s page ofs)
    | 0x02 =>
      if inArr ofs 0x300 4 128 then RegAns.read (ctrlRead s 1 ((ofs - 0x300) / 8)) (viewWord s page ofs)
      else if inArr ofs 0x100 4 128 then RegAns.read (ctrlRead s 1 (64 + (ofs - 0x100) / 8)) (viewWord s page ofs)
      else RegAns.read s (viewWord s page ofs)
    | 0x04 => if ofs = 0x08C then readDbgTag s false else if ofs = 0x090 then readDbgTag s true else RegAns.read s (viewWord s page ofs)
    | 0x05 => if inArr ofs 0x078 4 4 then readDbgDir s ((ofs - 0x078) / 4) else RegAns.read s (viewWord s page ofs)
    | 0x07 => if inArr ofs 0x074 4 4 then readDbgLane s ((ofs - 0x074) / 4) else RegAns.read s (viewWord s page ofs)
    | 0x0A =>
      if inArr ofs 0x200 4 64 then
        RegAns.read (ctrlRead s 2 (s.rf (rk 0x0A 0x04C) 3 0 * 64 + (ofs - 0x200) / 4)) (viewWord s page ofs)
      else if inArr ofs 0x100 4 64 then
        RegAns.read (ctrlRead s 2 (640 + s.rf (rk 0x0A 0x04C) 3 0 * 64 + (ofs - 0x100) / 4)) (viewWord s page ofs)
      else RegAns.read s (viewWord s page ofs)
    | 0x0C => readMbx s h false
    | 0x0D => readMbx s h true
    | 0x0F => match pmuWord ofs with | some (n, hi) => readPmu s n hi | none => RegAns.read s (viewWord s page ofs)
    | 0x10 =>
      if inArr ofs 0x060 4 4 then readTrc s ((ofs - 0x060) / 4)
      else RegAns.read s (viewWord s page ofs)
    | _ => RegAns.read s (viewWord s page ofs)

end Sys2Proof.Machine
end

