-- ==== Sys2Proof/Machine/RegWrite.lean ====
section
/-!
DEFINITION. What a register write does (00_scope.md R4-R21; 19_register_pages.md R497 and the register tables of each chapter): its value is
checked first, then the conditions its rules place on it, then it acts.
-/

namespace Sys2Proof.Machine

/-- Store a write's RW bits and clear the W1C bits it names (00 R12, R13). -/
def storeWord (s : State) (page ofs : Nat) (d : Word) : State :=
  let b := s.straps.build
  let k := rk page ofs
  let rw := BitVec.ofNat 32 (rwMask b page ofs)
  let wc := BitVec.ofNat 32 (w1cMask b page ofs)
  s.rgSet k (((s.rg k &&& ~~~ rw) ||| (d &&& rw)) &&& ~~~ (d &&& wc))

/-- A write of a header register (00 R16-R21): an unmasked error that now shows raises the page's interrupt. -/
def headerWrite (s : State) (page ofs : Nat) (d : Word) : State :=
  let was := errPending s page
  let s1 := storeWord s page ofs d
  if !was && errPending s1 page then raiseInt s1 page else s1

/-- A plain block register. -/
def plainWrite (s : State) (page ofs : Nat) (d : Word) : RegAns := RegAns.done (storeWord s page ofs d)

/-- A limit register: timers, and wakes of tiers, that have started by the time the response leaves, one sclk on, keep the old value (12 R345;
13 R362; 16 R450). -/
def limitWrite (s : State) (page ofs : Nat) (d : Word) : RegAns :=
  let old := s.rf (rk page ofs) 23 0
  let s1 := storeWord s page ofs d
  RegAns.done (if s1.rf (rk page ofs) 23 0 = old then s1
    else { s1 with ras := { s1.ras with limits := s1.ras.limits ++ [(rk page ofs, s1.now + 1, old)] } })

/-- Clear n counters from an offset. -/
def clearRegs (s : State) (page ofs n : Nat) : State := (List.range n).foldl (fun s i => s.rgSet (rk page (ofs + 4 * i)) 0) s

/-- An operation that answers with a code. -/
def RegAns.of (r : State × Nat) : RegAns := ⟨r.1, r.2, 8, 0⟩

/-- Which one of several exclusive actions a write asks for: none when it sets more than one, unless the last of them, which then acts
alone (03 R103; 10 R273; 14 R380, R393). -/
def oneAction (d : Word) (bits : List Nat) (alone : Nat) : Option Nat :=
  if bit d alone then some alone
  else match bits.filter (bit d) with
    | [b] => some b
    | _ => none

/-! ### Page SLC -/

/-- SLC.ABI_SEL (00 R4-R6): a change leaves the engine IDLE (05 R176). -/
def abiWrite (s : State) (d : Word) : RegAns :=
  let v := fld d 3 0
  if s.frm.state = .running ∨ s.frm.state = .resync ∨ s.frm.state = .quenched then RegAns.nack s nackBusy
  else if level s = v then RegAns.done s
  else
    let s1 := discardBoth (s.rgFld (rk 0x00 0x048) 3 0 v)
    RegAns.done { s1 with frm := { s1.frm with state := if s1.frm.state = .stopped then .idle else s1.frm.state } }

/-- The reset a write of SLC.RST_CTL orders: the one of the highest rank it names (16 R441). -/
def rstKind (d : Word) : Option ResetKind :=
  if bit d 0 then some .cold else if bit d 1 then some .warm else if bit d 2 then some .frame else if bit d 3 then some .smc else none

/-- What an accepted write orders for the sclk in which its response leaves (16 R436, R441). -/
def orderOf (page ofs : Nat) (d : Word) : Option Order :=
  if page = 0x00 ∧ ofs = 0x04C then (rstKind d).map .reset
  else if page = 0x0B ∧ ofs = 0x068 ∧ bit d 0 = true then some .retain
  else none

/-! ### Page FRM -/

/-- FRM.LOAD_CTL (05 R167, R168): `secure` is S of the write. -/
def loadCtlWrite (s : State) (d : Word) (secure : Bool) : RegAns :=
  let k := rk 0x01 0x058
  let keep := fun (s : State) => s.rgFld k 3 3 (b2n (bit d 3))
  if bit d 2 then RegAns.done (keep (loadAbortOp s))
  else if bit d 0 then (match loadOpenOp s with | (s1, true) => RegAns.done (keep s1) | (_, false) => RegAns.nack s nackBusy)
  else if bit d 1 then (match loadValidateOp s secure with | (s1, true) => RegAns.done (keep s1) | (_, false) => RegAns.nack s nackFrame)
  else RegAns.done (keep s)

/-! ### Page RGN -/

/-- Arm a region table commit (03 R101); a running validation restarts (05 R171). -/
def rgnArm (s : State) : State :=
  if s.rgn.pending then s
  else
    { s with
      rgn := { s.rgn with pending := true, checking := true, armedAt := s.now, heldEnts := heldEntries s, checked := 0, fault := none }
      frm := { s.frm with valAt := s.frm.valAt.map fun v => (s.now, v.2), valSeq := s.rb (rk 0x01 0x040) 1 } }

/-- A program is held in either half. -/
def anyHeld (s : State) : Bool := s.frm.active.isSome || s.frm.pend.isSome

/-- Take the request of a write with a later response into the request table until its sclk; without a free entry it is answered then all
the same. -/
def answerLater (s : State) (h : BitVec 256) (vc t0 at_ : Nat) : State :=
  match freeSlot s with
  | some k => setReq s k { head := h, payload := [], vc := vc, arrived := t0, progress := at_, phase := .regWait }
  | none => answerOpen s h vc ok 0 at_

/-- Commit the region table without a tick: the shadow copy as it stands at the write is checked, one entry an sclk, and becomes active
(03 R103; notes/assumptions/50.md). The header came seven sclk ago. -/
def rgnNow (s : State) : State :=
  { s with rgn := { s.rgn with nows := s.rgn.nows ++ [⟨s.now, shdWords s, 0, none⟩] } }

/-- RGN.COMMIT (03 R101-R104). -/
def rgnCommitWrite (s : State) (d : Word) : RegAns :=
  match oneAction d [0, 1] 2 with
  | some 2 => RegAns.done (if s.rgn.pending then { s with rgn := { s.rgn with cancelAt := some s.now } } else s)
  | some 0 => RegAns.done (rgnArm s)
  | some 1 => if s.rgn.pending || anyHeld s then RegAns.nack s nackBusy else { RegAns.done (rgnNow s) with delay := 70 }
  | _ => RegAns.done s

/-- SECURE of a shadow entry in either copy (03 R100). -/
def shadowSecure (s : State) (n : Nat) : Bool := (shdRegion s n).secure || (actRegion s n).secure

/-- A write of a shadow region word (03 R100, R101); its secure refusal is logged as SEC (03 R109). -/
def rgnShadowOp (s : State) (h : BitVec 256) (ofs : Nat) (d : Word) : RegAns :=
  let n := (ofs - 0x100) / 8
  let sets := decide ((ofs - 0x100) % 8 = 4) && bit d 3
  if !hS h && (shadowSecure s n || sets) then RegAns.nack (logErr s 0x02 3 (infoReg h)) nackSec
  else if s.rgn.pending then RegAns.nack s nackBusy
  else plainWrite (sramWrite s 18 1 (64 + n)) 0x02 ofs d

/-! ### Pages THL, CCH, DIR -/

/-- THL.TIER_FAIL: each 1 declares a tier; of several the lowest is recorded last (04 R133, R143). -/
def tierFailWrite (s : State) (d : Word) : State :=
  let new := (List.range 10).filter fun t => bit d t && !tierFailed s t
  let s1 := new.foldl (fun s t => declareTier s t 1) s
  match new with
  | t :: _ => s1.rgFld (rk 0x03 0x048) 23 20 t
  | [] => s1

/-- CCH.HOST_AGENT: a change waits for outstanding fills and writebacks (11 R305, R318). -/
def hostAgentWrite (s : State) (d : Word) : RegAns :=
  let k := rk 0x04 0x05C
  if (s.rg k &&& 0x800003FF#32) != (d &&& 0x800003FF#32) && (!s.cch.fills.isEmpty || !s.cch.wb.isEmpty) then RegAns.nack s nackBusy
  else plainWrite s 0x04 0x05C d

/-- DIR.WAY_RETIRED: ways in use are swept first; fewer than four ways left in service is refused (12 R344, R345). -/
def wayRetireOp (s : State) (d : Word) : State × Nat :=
  let k := rk 0x05 0x054
  let old := fld (s.rg k) 8 0
  let new := old ||| fld d 8 0
  if 5 < popCount 9 new then (s, nackBusy)
  else
    let used := (dirWays s).filter fun w => new.testBit w && !old.testBit w
    let s1 := s.rgFld k 8 0 new
    (sweepStep { s1 with dir := { s1.dir with sweep := s1.dir.sweep ||| (used.map (2 ^ ·)).sum } }, ok)

/-! ### Page UPD -/

/-- UPD.MAP_COMMIT (10 R272, R273). -/
def mapCommitWrite (s : State) (d : Word) : RegAns :=
  match oneAction d [0, 1] 2 with
  | some 2 => RegAns.done (if s.upd.mapAt.isSome then { s with upd := { s.upd with mapCancel := some s.now } } else s)
  | some 0 =>
    if s.upd.mapAt.isSome then RegAns.nack s nackBusy
    else (match mapFault s with
      | some (p, e) => RegAns.done (mapRefuse s p e)
      | none => RegAns.done { s with upd := { s.upd with mapAt := some s.now } })
  | some 1 =>
    if !(s.frm.state == .idle || s.frm.state == .stopped) || !s.acc.groups.isEmpty || s.upd.mapAt.isSome then RegAns.nack s nackBusy
    else (match mapFault s with
      | some (p, e) => { RegAns.done (mapRefuse s p e) with delay := 16 }
      | none => { RegAns.done { s with upd := { s.upd with mapNows := s.upd.mapNows ++ [(s.now + 9, mapWords s)] } } with delay := 16 })
  | _ => RegAns.done s

/-- UPD.RETIRED (10 R275). -/
def engRetire (s : State) (d : Word) : State :=
  let k := rk 0x06 0x068
  s.rgSet k (s.rg k ||| (d &&& BitVec.ofNat 32 (2 ^ nEngines s.straps.build - 1)))

/-- UPD.ENG_ERRk: a 1 in any bit of an engine's field clears the field (10 R294). -/
def engErrWrite (s : State) (ofs : Nat) (d : Word) : State :=
  (List.range 4).foldl (fun s i => if fld d (8 * i + 7) (8 * i) ≠ 0 then s.rgFld (rk 0x06 ofs) (8 * i + 7) (8 * i) 0 else s) s

/-- A step slot register: held while the engine is RUNNING (10 R288). -/
def slotWrite (s : State) (ofs : Nat) (d : Word) : State :=
  if s.frm.state = .running then
    let n := (ofs - 0x200) / 0x40
    let s1 := s.rgFld (rk 0x06 0x0B4) n n 1
    { s1 with upd := { s1.upd with held := (s1.upd.held.filter fun w => w.1 != ofs) ++ [(ofs, d)] } }
  else s.rgSet (rk 0x06 ofs) d

/-! ### Pages ACC and DEC -/

/-- The SAT fields of CTL; a change applies at once unless the engine is RUNNING (07 R218; 08 R252). A write that changes neither leaves a
value that waits for the next frame waiting. -/
def satWrite (s : State) (page : Nat) (d : Word) : State :=
  let s1 := storeWord s page 0x040 d
  if satNow s1 && s.rf (rk page 0x040) 1 0 != s1.rf (rk page 0x040) 1 0 then
    (if page = 0x08 then applySatDec s1 else applySatAcc s1)
  else s1

/-! ### Page RAS -/

/-- RAS.WDOG_CTL (13 R365, R374): EN = 0 holds the count. -/
def wdogWrite (s : State) (d : Word) : State :=
  let was := s.rb (rk 0x09 0x070) 0
  let n := wdogCount s
  let s1 := storeWord s 0x09 0x070 d
  let s2 : State :=
    if was && !bit d 0 then { s1 with ras := { s1.ras with wdogHeld := some n } }
    else if !was && bit d 0 then { s1 with ras := { s1.ras with wdogHeld := none, wdogAt := s1.now - n } }
    else s1
  if bit d 1 then wdogRestart s2 else s2

/-- RAS.INJ (13 R373). -/
def injWrite (s : State) (d : Word) : State :=
  let s1 := storeWord s 0x09 0x08C d
  if bit d 7 then s1.rgFld kInj 7 7 1 else s1

/-! ### Page SPR -/

/-- The shadow sparing copies as a commit written now checks them. -/
def sprChk (s : State) : SprChk := ⟨s.now, s.spr.camShd, s.spr.laneShd, 0, none⟩

/-- Arm a sparing commit (14 R378). -/
def sprArm (s : State) : State :=
  if s.spr.pending then s else { s with spr := { s.spr with pending := true, checking := true, armed := some (sprChk s) } }

/-- SPR.COMMIT (14 R378, R380). -/
def sprCommitWrite (s : State) (d : Word) : RegAns :=
  match oneAction d [0, 1] 2 with
  | some 2 => RegAns.done (if s.spr.pending then { s with spr := { s.spr with cancelAt := some s.now } } else s)
  | some 0 => RegAns.done (sprArm s)
  | some 1 =>
    if !(s.frm.state == .idle || s.frm.state == .stopped) || s.spr.pending then RegAns.nack s nackBusy
    else { RegAns.done { s with spr := { s.spr with nows := s.spr.nows ++ [sprChk s] } } with delay := 664 }
  | _ => RegAns.done s

/-- A shadow CAM or lane word, or CAM_SEL: refused while a commit is pending (14 R378). -/
def sprShadowOp (s : State) (ofs : Nat) (d : Word) : RegAns :=
  if s.spr.pending then RegAns.nack s nackBusy
  else if ofs = 0x04C then RegAns.done (s.rgFld (rk 0x0A 0x04C) 3 0 (fld d 3 0))
  else if inArr ofs 0x094 4 8 then
    RegAns.done { s with spr := { s.spr with laneShd := smSet s.spr.laneShd ((ofs - 0x094) / 4) (d &&& 0x87FF87FF#32) 0 } }
  else
    let t := s.rf (rk 0x0A 0x04C) 3 0
    let k := t * 64 + (ofs - 0x100) / 4
    RegAns.done (sramWrite { s with spr := { s.spr with camShd := smSet s.spr.camShd k (d &&& 0x8001FFFF#32) 0 } } 18 2 (640 + k))

/-- SPR.REBUILD_CTL (14 R386, R389). -/
def rebuildWrite (s : State) (d : Word) : RegAns :=
  let keep := fun (s : State) => storeWord s 0x0A 0x054 d
  match oneAction d [0, 1, 2] 3 with
  | some 3 => RegAns.done (rebuildAbortOp (keep s))
  | some 0 => if rebuildMay s (fld d 7 4) then RegAns.done (rebuildGo (keep s) (fld d 7 4)) else RegAns.nack s nackBusy
  | some 1 => RegAns.done (rebuildPauseOp (keep s))
  | some 2 => RegAns.done (rebuildResumeOp (keep s))
  | _ => RegAns.done (keep s)

/-- A record whose V clears the whole register (14 R393). -/
def recordWrite (s : State) (ofs : Nat) (d : Word) : State := if bit d 31 then s.rgSet (rk 0x0A ofs) 0 else s

/-! ### Pages PWR, MBN, MBS -/

/-- PWR.RETAIN (16 R435, R437): the response to an accepted ENTER starts retention; EXIT does nothing outside retention. -/
def retainWrite (s : State) (d : Word) : RegAns :=
  if bit d 0 then (match retainCheck s (tableUsed s) with | some c => RegAns.nack s c | none => RegAns.done s)
  else RegAns.done s

/-- ACK (15 R404, R407, R410): a write that either action refuses changes nothing. -/
def mbxAckWrite (s : State) (h : BitVec 256) (secure : Bool) (d : Word) : State × Nat :=
  let (s1, c) := if bit d 1 then mbxInAbort s secure (hSrc h) (hRing h) else (s, ok)
  let (s2, e) := if bit d 0 then mbxOutAck s1 secure (hSrc h) else (s1, ok)
  if c ≠ ok then (s, c) else if e ≠ ok then (s, e) else (s2, ok)

/-- A block register of a mailbox page (15 R398-R411); its response leaves at sclk 9, a refusal at 8 (R403; 02 R66). -/
def mbxWrite (s : State) (h : BitVec 256) (secure : Bool) (d : Word) : RegAns :=
  let src := hSrc h
  let page := mbxPage secure
  let r : State × Nat := match rOfs h with
    | 0x040 => (if bit d 0 then mbxRing s secure else s, ok)
    | 0x044 => if mbxCtlBusy s secure d then (s, nackBusy) else (storeWord s page 0x044 d, ok)
    | 0x04C => (mbxLockWrite s secure src, ok)
    | 0x058 => mbxPush s secure src d
    | 0x060 => mbxAckWrite s h secure d
    | ofs => (storeWord s page ofs d, ok)
  ⟨touchLock r.1 secure src, r.2, if r.2 = ok then 9 else 8, 0⟩

/-! ### Pages ARB, PMU, DBG -/

/-- ARB.COMMIT (17 R460). -/
def arbCommit (s : State) : State := (List.range 10).foldl (fun s n => s.rgSet (rk 0x0E (0x0C0 + 4 * n)) (s.rg (rk 0x0E (0x080 + 4 * n)))) s

/-- ARB.CTL.CNT_CLR (17 R463). -/
def arbClear (s : State) : State := clearRegs (clearRegs s 0x0E 0x050 2) 0x0E 0x140 10

/-- CTL.CNT_CLR: every counter is 0 at the end of this sclk, whose events do not count (18 R469; notes/assumptions/64.md). -/
def pmuClearNow (s : State) : State :=
  let c := pmuClear s
  { c with obs := { c.obs with pmuTo := s.now + 1, clearedAt := some s.now } }

/-- PMU.CTL (18 R465, R468, R469): the counters have counted the sclk of the write, unless it clears them; a wrap of that sclk leaves FROZEN
set. -/
def pmuCtlWrite (s : State) (d : Word) : State :=
  let s0 := pmuKeep s (rk 0x0F 0x040)
  let s1 := storeWord (if bit d 1 then pmuClearNow (pmuCount s0 s.now) else pmuCount s0 (s.now + 1)) 0x0F 0x040 d
  if s1.obs.frozenAt = some s.now then s1.rgFld (rk 0x0F 0x040) 3 3 1 else s1

/-- A word of CNTn (18 R469). -/
def pmuCntOp (s : State) (n : Nat) (hi : Bool) (d : Word) : RegAns :=
  if s.rb (rk 0x0F (0x080 + 0x10 * n)) 8 then RegAns.nack s nackBusy
  else RegAns.done (s.rgSet (if hi then pmuHi n else pmuLo n) (if hi then d &&& 0xFFFF#32 else d))

/-- CNTn_CFG with an allowed event (18 R467, R469). -/
def pmuCfgOp (s : State) (n : Nat) (d : Word) : State :=
  storeWord (pmuCount (pmuKeep s (rk 0x0F (0x080 + 0x10 * n))) (s.now + 1)) 0x0F (0x080 + 0x10 * n) d

/-- DBG.TRC_CTL (18 R478-R480). -/
def trcCtlWrite (s : State) (d : Word) : State :=
  let s1 := storeWord s 0x10 0x04C d
  if bit d 2 then trcClear s1 else s1

/-! ### All pages -/

/-- Values a register's rules refuse, whatever the state of the slice (R497). -/
def badValue (b : Build) (page ofs : Nat) (d : Word) : Bool :=
  !valueOk b page ofs d ||
    (match page with
      | 0x0B => ofs == 0x068 && bit d 0 && bit d 1
      | 0x0F => inArr ofs 0x080 16 8 && !pmuEvents.contains (fld d 7 0)
      | 0x10 => ofs == 0x040 && decide (1 < popCount 4 (fld d 3 1))
      | 0x11 => inArr ofs 0x050 4 16 && !selOk d
      | _ => false)

/-- A value that only a request with S = 1 may write (R497; 13 R371; 16 R435, R437, R441; 18 R474). -/
def needsS (page ofs : Nat) (d : Word) : Bool :=
  match page with
  | 0x00 => ofs == 0x04C && (bit d 0 || bit d 1)
  | 0x09 => ofs == 0x050 && bit d 0
  | 0x0B => ofs == 0x068 && (bit d 0 || bit d 1)
  | 0x10 => ofs == 0x040
  | _ => false

/-- A write of a block register of an LOGIC page other than the mailboxes'. -/
def blockWrite (s : State) (h : BitVec 256) (page ofs : Nat) (d : Word) : RegAns :=
  let plain := fun (_ : Unit) => plainWrite s page ofs d
  match page with
  | 0x00 => (match ofs with | 0x048 => abiWrite s d | 0x04C => RegAns.done s | _ => plain ())
  | 0x01 => (match ofs with
      | 0x048 => RegAns.of (paramWrite s (rk 0x01 ofs) 16 (fld d 16 0))
      | 0x04C => RegAns.of (reserveWrite s (fld d 15 0))
      | 0x050 => RegAns.of (paramWrite s (rk 0x01 ofs) 5 (fld d 5 0))
      | 0x054 => RegAns.of (paramWrite s (rk 0x01 ofs) 9 (fld d 9 0))
      | 0x058 => loadCtlWrite s d (hS h)
      | 0x060 => RegAns.of (loadWriteOp s d)
      | _ => plain ())
  | 0x02 => if ofs = 0x040 then rgnCommitWrite s d else if inArr ofs 0x100 4 128 then rgnShadowOp s h ofs d else plain ()
  | 0x03 => if ofs = 0x048 then RegAns.done (tierFailWrite s d) else plain ()
  | 0x04 => (match ofs with
      | 0x040 => RegAns.done (if bit d 0 then clearRegs s 0x04 0x064 9 else s)
      | 0x05C => hostAgentWrite s d
      | _ => plain ())
  | 0x05 => (match ofs with
      | 0x040 => RegAns.done (if bit d 0 then clearRegs s 0x05 0x058 7 else s)
      | 0x04C => limitWrite s page ofs d
      | 0x050 => limitWrite s page ofs d
      | 0x054 => RegAns.of (wayRetireOp s d)
      | _ => plain ())
  | 0x06 =>
    if ofs = 0x040 then let s1 := storeWord s page ofs d; RegAns.done (if bit d 1 then clearRegs s1 0x06 0x0A0 5 else s1)
    else if ofs = 0x04C then mapCommitWrite s d
    else if inArr ofs 0x050 4 3 then (if s.upd.mapAt.isSome then RegAns.nack s nackBusy else plain ())
    else if ofs = 0x068 then RegAns.done (engRetire s d)
    else if inArr ofs 0x08C 4 5 then RegAns.done (engErrWrite s ofs d)
    else if engReg s.straps.build 0x06 ofs && decide (0x200 ≤ ofs) then RegAns.done (slotWrite s ofs d)
    else plain ()
  | 0x07 =>
    if ofs = 0x040 then let s1 := satWrite s page d; RegAns.done (if bit d 2 then clearRegs s1 0x07 0x058 6 else s1) else plain ()
  | 0x08 =>
    if ofs = 0x040 then
      let s1 := satWrite s page d
      RegAns.done (if bit d 2 then clearRegs (clearRegs s1 0x08 0x054 8) 0x08 0x080 4 else s1)
    else plain ()
  | 0x09 =>
    if ofs = 0x040 then
      let s1 := if bit d 0 then rasClear s else s
      RegAns.done (if bit d 1 then bktClear s1 else s1)
    else if ofs = 0x050 then RegAns.done (if bit d 0 then forceOp s h else s)
    else if ofs = 0x064 ∨ ofs = 0x068 ∨ ofs = 0x06C then limitWrite s page ofs d
    else if ofs = 0x070 then RegAns.done (wdogWrite s d)
    else if ofs = 0x074 then let s1 := storeWord s page ofs d; RegAns.done (if bit d 1 then scrubRestartOp s1 else s1)
    else if ofs = 0x088 then RegAns.done (patrolRestart s (storeWord s page ofs d))
    else if ofs = 0x08C then RegAns.done (injWrite s d)
    else if inArr ofs 0x100 8 (nDomains s.straps.build) then RegAns.done (domCfgOp s ((ofs - 0x100) / 8) d)
    else plain ()
  | 0x0A =>
    if ofs = 0x044 then sprCommitWrite s d
    else if ofs = 0x04C || inArr ofs 0x094 4 8 || inArr ofs 0x100 4 64 then sprShadowOp s ofs d
    else if ofs = 0x054 then rebuildWrite s d
    else if ofs = 0x068 || ofs = 0x0D4 || ofs = 0x0D8 then RegAns.done (recordWrite s ofs d)
    else plain ()
  | 0x0B => (match ofs with
      | 0x040 => RegAns.of (domainOp s d)
      | 0x048 => RegAns.of (tierCmdOp s d)
      | 0x050 => limitWrite s page ofs d
      | 0x054 => limitWrite s page ofs d
      | 0x068 => retainWrite s d
      | _ => plain ())
  | 0x0E =>
    if ofs = 0x040 then RegAns.done (if bit d 0 then arbClear s else s)
    else if ofs = 0x048 then RegAns.done (if bit d 0 then arbCommit s else s)
    else if inArr ofs 0x100 4 10 then RegAns.done (if fld d 31 16 ≠ 0 then s.rgFld (rk page ofs) 31 16 0 else s)
    else plain ()
  | 0x0F =>
    if ofs = 0x040 then RegAns.done (pmuCtlWrite s d)
    else if inArr ofs 0x080 16 8 then RegAns.done (pmuCfgOp s ((ofs - 0x080) / 16) d)
    else if inArr ofs 0x084 16 8 then pmuCntOp s ((ofs - 0x084) / 16) false d
    else if inArr ofs 0x088 16 8 then pmuCntOp s ((ofs - 0x088) / 16) true d
    else plain ()
  | 0x10 => (match ofs with
      | 0x040 => RegAns.of (dbgCtlOp s d (hS h))
      | 0x04C => RegAns.done (trcCtlWrite s d)
      | _ => plain ())
  | 0x11 => if inArr ofs 0x050 4 16 then RegAns.done (selOp s ((ofs - 0x050) / 4) d) else plain ()
  | _ => plain ()

/-- A register write that has passed stages 1-11, at stage 12 (R497). -/
def regWrite (s : State) (h : BitVec 256) : RegAns :=
  let page := rPage h
  let ofs := rOfs h
  let d : Word := hData h
  if badValue s.straps.build page ofs d then RegAns.nack s nackRsvd
  else if needsS page ofs d && !hS h then RegAns.nack s nackSec
  else if ofs < 0x040 then
    RegAns.done (if page = 0x0C ∨ page = 0x0D then touchLock (headerWrite s page ofs d) (page = 0x0D) (hSrc h) else headerWrite s page ofs d)
  else if debugOnly page ofs && !debugMode s then RegAns.nack s nackPerm
  else if page = 0x0C then mbxWrite s h false d
  else if page = 0x0D then mbxWrite s h true d
  else blockWrite s h page ofs d

end Sys2Proof.Machine
end

