-- ==== Sys2Proof/Machine/Request.lean ====
section
/-!
DEFINITION. Packets at the C-net input: the check stages, the port shell, fail-stop, and what an accepted request starts; responses of
cores and host agents (02_fabric_interface.md R42-R67, R75-R77; 00_scope.md R17; 12_coherence.md R321; 16_power_clocks_reset.md R423).
-/

namespace Sys2Proof.Machine

/-! ### Time within a packet -/

/-- The state as sclk `c` sees it: the clock is moved there and the commits that end by then have taken effect (03 R105). -/
def dueBy (s : State) (c : Nat) : State :=
  { sprNowStep (mapNowStep (rgnNowStep { s with now := max s.now c })) with now := max s.now c, straps := s.straps }

/-- The state in which sclk `c` serves a request: a bit that hardware sets in the sclk of a register write ends set, so what falls due in that
very sclk comes behind the write (00 R14). -/
def dueFor (s : State) (h : BitVec 256) (c : Nat) : State :=
  if hOpcode h = 0x31 then { dueBy s (c - 1) with now := max s.now c } else dueBy s c

/-- Back to the clock of the command. -/
def backTo (s : State) (t : Nat) : State := { s with now := t }

/-! ### Stages 10-12 -/

/-- Checks of stage 10 that follow step g of R97: R321, R312 and R61, R195, R246, and the ring of the mailbox settings (15 R396). -/
def stage10 (s : State) (h : BitVec 256) : Option Nack :=
  let op := hOpcode h
  let info := mkFld 6 0 op + mkFld 16 7 (hSrcId h) + mkFld 18 17 (hSrcType h)
  if (isCohRead h || isWb op) && !(hSrcType h == 0 && hSrcChip h == s.straps.chip) then some ⟨nackPerm, some (5, 5, info), 7⟩
  else if isSetWay op && hRing h != 0 then
    some ⟨nackPerm, some (4, 4, mkFld 6 0 op + mkFld 8 7 (hRing h) + mkFld 18 9 (hSrcId h) + mkFld 20 19 (hSrcType h)), 7⟩
  else if isSetWay op && decide (12 ≤ fld h 179 176) then some ⟨nackRange, none, 7⟩
  else if op = 0x28 then pullCheck s h
  else if op = 0x1E then
    (let g := vaccGroup h
     if !s.rb (rk 0x07 0x04C) (hRing h) then some ⟨nackPerm, none, 7⟩
     else if s.rb (rk 0x07 0x04C) 4 && !hS h then some ⟨nackSec, none, 7⟩
     else if !s.rb (rk 0x07 (0x050 + 4 * (g / 32))) (g % 32) then some ⟨nackPerm, none, 7⟩
     else none)
  else if op = 0x31 ∧ rPage h = 0x0C ∧ (rOfs h = 0x044 ∨ rOfs h = 0x048) ∧ hRing h ≠ 0 then some ⟨nackPerm, some (2, 1, infoReg h), 7⟩
  else none

/-- A writeback of an own core whose line's region is no longer COHERENT (03 R107), the secure check aside. -/
def isStaleWb (s : State) (h : BitVec 256) : Bool :=
  isWb (hOpcode h) && hSrcType h == 0 && hSrcChip h == s.straps.chip && staleCoherent s h &&
    (match checkSpace s h with | some n => n.code != nackSec | none => true)

/-- The first refusal of stages 3-10, as sclk 5 sees the slice. -/
def refusal10 (s : State) (h : BitVec 256) (vc : Nat) : Option Nack :=
  match checkForm s h vc with
  | some n => some n
  | none =>
    if !checkHome s h then some ⟨nackRange, some (0, 10, infoOp h), 5⟩
    else if isDuplicate s h then some ⟨nackBusy, none, 5⟩
    else if isStaleWb s h then some ⟨nackPerm, none, 7⟩
    else
      match checkSpace s h with
      | some n => some n
      | none => stage10 s h

/-- The state of the request table does not matter to this request: an abort is not checked after stage 10 (06 R195), and the value of a
register write, with the S it needs, is checked before any state (00 R497). -/
def passesTable (s : State) (h : BitVec 256) : Bool :=
  (hOpcode h == 0x28 && pAbort h) ||
    (hOpcode h == 0x31 && (badValue s.straps.build (rPage h) (rOfs h) (hData h) || (needsS (rPage h) (rOfs h) (hData h) && !hS h)))

/-- The first refusal of stages 11 and 12, as sclk 7 sees the slice; `rg` is the region that its check hit. A `NOP` passes both (02 R66; 03 R88). -/
def refusal12 (s : State) (rg : Option Region) (h : BitVec 256) : Option Nack :=
  let op := hOpcode h
  if op = 0 then none
  else
    match (if op = 0x30 ∨ op = 0x31 then (if regOff s (rPage h) (rOfs h) then some nackPwr else none) else stage11 s h) with
    | some c => some ⟨c, none, 8⟩
    | none =>
      if !passesTable s h && tableFull s h then some ⟨nackBusy, none, 8⟩
      else if op = 0x30 ∨ op = 0x31 then none
      else (stage12 s rg h).map fun c => ⟨c, none, 8⟩

/-- The first refusal of stages 3-12 of a request whose header is at the input in the current sclk. -/
def firstRefusal (s : State) (h : BitVec 256) (vc : Nat) : Option Nack :=
  let s5 := dueBy s (s.now + 5)
  match refusal10 s5 h vc with
  | some n => some n
  | none => refusal12 (dueBy s (s.now + 7)) (hitRegion s5 h) h

/-- Count a refused `AT_VACC` (08 R246). -/
def countVacc (s : State) (h : BitVec 256) (n : Nack) : State :=
  if hOpcode h = 0x1E ∧ 7 ≤ n.delay then s.bump (rk 0x07 0x06C) else s

/-- The sclk of the check that refuses, counted from the header. -/
def Nack.at_ (n : Nack) : Nat := if n.delay ≤ 5 then 0 else if n.delay = 7 then 5 else 7

/-- Answer a refused request: its record, and a stale writeback's entry (R65, R66; 03 R107). -/
def refuseReq (s : State) (h : BitVec 256) (vc : Nat) (n : Nack) : State :=
  let t := s.now
  let s1 := dueBy s (t + n.at_)
  let s2 := if n.at_ = 5 ∧ checkHome s1 h ∧ checkForm s1 h vc = none ∧ isStaleWb s1 h then refuseStale s1 h else s1
  backTo (refuse (countVacc s2 h n) h vc t n) t

/-! ### Accepted requests -/

/-- The record of a request that passes stage 12 (18 R478). -/
def traceReq (s : State) (h : BitVec 256) : State :=
  let f := s.rg (rk 0x10 0x050)
  if (bit f 7 || fld f 6 0 == hOpcode h) && bit f (8 + hSrcType h) then
    trace s 2 0 (mkFld 6 0 (hOpcode h) + mkFld 8 7 (hRing h) + mkFld 9 9 (b2n (hS h)) + mkFld 10 10 (b2n (hSpec h))
      + mkFld 12 11 (hSrcType h) + mkFld 22 13 (hSrcId h) + mkFld 30 23 (hTxn h) + mkFld 63 32 (fld h 134 103))
  else s

/-- A register access to the two pages that a failed slice serves (02 R77). -/
def servedInFail (h : BitVec 256) : Bool :=
  (hOpcode h == 0x30 || hOpcode h == 0x31) && hSpace h == 2 && (rPage h == 0x00 || rPage h == 0x09)

/-- Answer a register access whose header came at sclk `t0` (02 R60, R66): PARAM carries the word read. An access that ends in fail-stop has
no answer but on the pages that fail-stop serves (02 R77). -/
def answerReg (h : BitVec 256) (vc t0 : Nat) (r : RegAns) : State :=
  if failed r.st && !servedInFail h then r.st
  else if 16 ≤ r.delay then answerLater r.st h vc t0 (t0 + r.delay) else answerOpen r.st h vc r.code r.word.toNat (t0 + r.delay)

/-- The packet queued last carries an order. -/
def markOrder (s : State) (k : Option Order) : State :=
  match s.fab.out.getLast?, k with
  | some o, some _ => { s with fab := { s.fab with out := s.fab.out.dropLast ++ [{ o with order := k }] } }
  | _, _ => s

/-- Answer a register write: its response carries what it orders (16 R436, R441). -/
def answerWrite (h : BitVec 256) (vc t0 : Nat) (r : RegAns) : State :=
  markOrder (answerReg h vc t0 r) (if r.code = ok then orderOf (rPage h) (rOfs h) (hData h) else none)

/-- The request table entry of an accepted request; `rg` is the region that its check hit (03 R105). -/
def mkReq (p : CPacket) (rg : Option Region) (t0 now : Nat) (ph : Phase) : Req :=
  { head := p.head, payload := p.payload, vc := p.vc.toNat, arrived := t0, progress := now, phase := ph, rgn := rg }

/-- Take a memory request into the request table and serve it, or hold it while a quench is in force (02 R48; 17 R462). -/
def takeReq (s : State) (p : CPacket) (rg : Option Region) (t0 : Nat) : State :=
  match freeSlot s with
  | none =>
    -- an abort is checked at stages 1-10 only: it acts without an entry (06 R195)
    if hOpcode p.head = 0x28 ∧ pAbort p.head = true then abortAt s p.head p.vc.toNat
    else answer s p.head p.vc.toNat nackBusy 0 (t0 + 8)
  | some k =>
    if quenched s && quenchHolds p.head p.vc.toNat then sramWrite (setReq s k (mkReq p rg t0 s.now .held)) 18 0 k
    else
      let s1 := ctrlRead (sramWrite (setReq s k (mkReq p rg t0 s.now .home)) 18 0 k) 0 k
      if failed s1 then s1 else serveMem s1 k

/-- A read of ACC.DBG_DATA0 whose lane's bank has no free slot now (08 R251). -/
def viewWaits (s : State) (h : BitVec 256) : Bool :=
  rPage h == 0x07 && rOfs h == 0x074 && debugMode s && !viewFree s s.now

/-- Serve a register read: one that the debug view puts off waits in the request table (08 R251). -/
def serveReg (s : State) (h : BitVec 256) (vc t0 : Nat) : State :=
  match (if viewWaits s h then freeSlot s else none) with
  | some k => setReq s k { head := h, payload := [], vc := vc, arrived := t0, progress := s.now, phase := .laneRead }
  | none => answerReg h vc t0 (regRead s h)

/-- Serve a request that has passed stage 12; the clock is at sclk 7 of its header. -/
def serveReq (s0 : State) (p : CPacket) (rg : Option Region) (t0 : Nat) : State :=
  let h := p.head
  let vc := p.vc.toNat
  let s := traceReq s0 h
  match hOpcode h with
  | 0x00 => answerOpen s h vc ok 0 (t0 + 8)
  | 0x30 => serveReg s h vc t0
  | 0x31 => answerWrite h vc t0 (regWrite s h)
  | _ => takeReq s p rg t0

/-- What an accepted request does, its header at the input in the current sclk. -/
def acceptReq (s : State) (p : CPacket) : State :=
  backTo (serveReq (dueFor s p.head (s.now + 7)) p (hitRegion (dueBy s (s.now + 5)) p.head) s.now) s.now

/-- The request reaches step c of stage 10, where the 64 active regions are compared (02 R65; 03 R97). -/
def looksUp (s : State) (h : BitVec 256) (vc : Nat) : Bool :=
  let op := hOpcode h
  (checkForm s h vc).isNone && checkHome s h && !isDuplicate s h && spaceOk op (hSpace h) && hSpace h == 0 && isMemOp op && !isSetWay op

/-- The look-up of step c reads the region table: an uncorrectable word ends in fail-stop (13 R347). -/
def lookUp (s : State) (h : BitVec 256) (vc : Nat) : State :=
  if looksUp s h vc then { ctrlScan { s with now := s.now + 5 } 1 0 64 with now := s.now, straps := s.straps } else s

/-- A request on REQ or MGMT that has passed stage 2. -/
def requestIn (s0 : State) (p : CPacket) : State :=
  let s := lookUp (pmuReq s0 0x50 p.head) p.head p.vc.toNat
  if failed s && !failed s0 then s
  else match firstRefusal s p.head p.vc.toNat with
  | some n => refuseReq s p.head p.vc.toNat n
  | none => acceptReq s p

/-! ### Responses -/

/-- Reserved header bits of a response that are not 0, and the PARAM of those that carry none (02 R57, R63). A reserved code counts as a
fault of bit 8, the lowest of RESP: R63 and R76 name no bit for it (DESIGN CHOICE, notes/assumptions/46.md). -/
def rspBadBits (h : BitVec 256) : List Nat :=
  (([7, 22, 23] ++ (List.range 5).map (· + 59) ++ (List.range 5).map (· + 91) ++ (List.range 8).map (· + 152) ++
    (List.range 32).map (· + 224)).filter fun i => bit h i) ++ (if 0xD ≤ hResp h then [8] else []) ++
    ((List.range 64).map (· + 160)).filter fun i => bit h i

/-- The INT that a response answers (R64, R67). -/
def findInt (s : State) (h : BitVec 256) : Option IntTxn :=
  s.fab.ints.find? fun i => i.txn == some (hTxn h) && i.failedAt.isNone && hSrc h == intDest s i

/-- The EVT that a response answers (R64, R67). -/
def findEvt (s : State) (h : BitVec 256) : Option EvtTxn := s.fab.evts.find? fun e => e.txn == hTxn h && e.dest == hSrc h

/-- The response comes from the host agent of CCH.HOST_AGENT. -/
def fromHost (s : State) (h : BitVec 256) : Bool := match hostAgent s with | some a => hSrc h == (2, a, s.straps.chip) | none => false

/-- A response that matches no open transaction is sunk (R64). -/
def strayRsp (s : State) (h : BitVec 256) : State := logErr s 0x00 11 (mkFld 6 0 (hOpcode h) + mkFld 14 7 (hTxn h))

/-- Response code of a packet, a malformed one counting as `NACK_RSVD` (R63). -/
def rspCode (h : BitVec 256) : Nat := if (rspBadBits h).isEmpty then hResp h else nackRsvd

/-- `RSP_COMP`, or a `DAT_COMP` that carries no data: the answer to an `INT`, an `EVT` or a request of the slice's own to the host agent. -/
def rspComp (s : State) (h : BitVec 256) (data : Option Line) : State :=
  let code := rspCode h
  let txn := hTxn h
  match findInt s h with
  | some i =>
    if code ≤ 1 then { s with fab := { s.fab with ints := s.fab.ints.filter fun x => x != i } } else intFailed s i s.now
  | none =>
    match findEvt s h with
    | some e =>
      let s1 : State := { s with fab := { s.fab with evts := s.fab.evts.erase e } }
      if code ≤ 1 then s1 else pmuEv s1 0x55 1
    | none =>
    if !fromHost s h then strayRsp s h
    else
      match s.cch.fills.find? fun f => f.txn == some txn with
      | some f =>
        (match data with
          | some l => if code ≤ 1 then fillArrived s f.set f.way l else fillFailed s f.set f.way code
          | none => fillFailed s f.set f.way (if code ≤ 1 then nackRsvd else code))
      | none =>
        match (List.range 72).find? fun b => txn == wbTxn b && (match smGet s.cch.wb b with | some e => e.space && e.failedAt.isNone | none => false) with
        | some b => if code ≤ 1 then wbDone s b else wbFailed s b s.now
        | none =>
          match s.cch.host.find? fun o => txn == 0x40 + o.slot with
          | some o => hostDone s o.slot code (if code ≤ 1 then data else none)
          | none => strayRsp s h

/-- `RSP_ACK`: the requester of a coherent read has its data (12 R327, R330). -/
def rspAck (s : State) (h : BitVec 256) : State :=
  match s.dir.txns.find? fun e =>
      match getReq s e.1 with
      | some r => isCohRead r.head && !e.2.acked && hSrc r.head == hSrc h && hTxn r.head == hTxn h
      | none => false with
  | some (k, t) => moveTxn (putTxn (progressed s k) k { t with acked := true }) k
  | none => strayRsp s h

/-- An answer of a core with a reserved field or code: the message counts as answered, and the request is completed `NACK_RSVD` (R63). -/
def badCoreRsp (s : State) (k : Nat) (t : Txn) (i : Nat) (w : Await) : State :=
  let s1 := if w.op ≤ 0x42 ∨ w.op = 0x44 then s else dropCore s t.space t.x w.core
  let s2 := putTxn s1 k { t with awaits := t.awaits.set i { w with answered := true, miss := false } }
  if k < 64 ∧ t.stage ≤ 3 then homeComp s2 k nackRsvd (s2.now + 1) else moveTxn s2 k

/-- `RSP_FWD_DONE`, `RSP_FWD_MISS_WB`, `RSP_INV_ACK` and `DAT_SNP` answer an outstanding forward or snoop (12 R327). -/
def coreRsp (s : State) (h : BitVec 256) (data : Option Line) : State :=
  match (if hSrcType h = 0 ∧ hSrcChip h = s.straps.chip then findAwait s (hTxn h) (hSrcId h) (hAddr h) else none) with
  | some (k, t, i, w) => if (rspBadBits h).isEmpty then coreAnswer s k t i w (hOpcode h) data else badCoreRsp s k t i w
  | none => strayRsp s h

/-- A packet on RSP or DAT (R63, R64, R75). -/
def responseIn (s : State) (p : CPacket) : State :=
  let h := p.head
  let op := hOpcode h
  if op < 0x50 ∨ 0x58 < op then logErr s 0x00 3 (infoMal h p.vc.toNat)
  else
    let bad := (rspBadBits h).foldl (fun (a : Option Nat) b => some (match a with | some x => min x b | none => b)) none
    let s1 := match bad with | some b => logErr s 0x00 2 (infoRsv h b) | none => s
    let data := if p.payload.isEmpty then none else some (payloadLine p.payload)
    match op with
    | 0x50 => rspComp s1 h none
    | 0x51 => rspComp s1 h data
    | 0x52 => rspAck s1 h
    | 0x53 => coreRsp s1 h none
    | 0x54 => coreRsp s1 h none
    | 0x55 => coreRsp s1 h none
    | 0x57 => coreRsp s1 h data
    | _ => strayRsp s1 h

/-! ### The port shell and fail-stop -/

/-- Answer from the shell: 8 sclk after the header, one at a time (16 R423). -/
def shellAnswer (s : State) (h : BitVec 256) (vc code param : Nat) : State :=
  let at_ := max (s.now + 8) s.fab.shellFree
  let s1 := answer s h vc code param at_
  { s1 with fab := { s1.fab with shellFree := at_ + 1 } }

/-- Registers the shell reads (16 R423): PAGE_ID, ID, STATUS, DOMAIN_STATUS, TIER_STATE. -/
def shellRead (page ofs : Nat) : Bool :=
  (page == 0x00 && (ofs == 0x000 || ofs == 0x040 || ofs == 0x044)) || (page == 0x0B && (ofs == 0x044 || ofs == 0x04C))

/-- A register write the shell serves. -/
def shellWrite (page ofs : Nat) (d : Word) : Bool := (page == 0x00 && ofs == 0x04C && (bit d 0 || bit d 1)) || (page == 0x0B && ofs == 0x068)

/-- Write SLC.RST_CTL or PWR.RETAIN through the shell (16 R435, R437, R441). -/
def shellWriteOp (s : State) (h : BitVec 256) (vc : Nat) : State :=
  let d : Word := hData h
  if badValue s.straps.build (rPage h) (rOfs h) d then shellAnswer s h vc nackRsvd 0
  else if needsS (rPage h) (rOfs h) d && !hS h then shellAnswer s h vc nackSec 0
  else
    let s1 := shellAnswer s h vc ok 0
    if rPage h = 0x00 then markOrder s1 ((rstKind d).map .reset)
    else if bit d 1 then retainExitOp s1 5 else s1

/-- A packet the shell receives; its CRC, channel and length are good. A fused-off slice answers as R17 lays down. -/
def shellIn (s : State) (p : CPacket) : State :=
  let h := p.head
  let vc := p.vc.toNat
  let op := hOpcode h
  let d : Word := hData h
  if vc ≠ 0 ∧ vc ≠ 4 then s
  else if s.straps.fused then shellAnswer s h vc (if op = 0x30 ∨ op = 0x31 then ok else nackRange) 0
  else if op = 0x30 ∧ hSpace h = 2 ∧ shellRead (rPage h) (rOfs h) = true then
    (match checkReg s h with
      | some n => shellAnswer s h vc n.code 0
      | none => shellAnswer s h vc ok (viewWord s (rPage h) (rOfs h)).toNat)
  else if op = 0x31 ∧ hSpace h = 2 ∧ shellWrite (rPage h) (rOfs h) d = true then
    (match checkReg s h with
      | some n => shellAnswer s h vc n.code 0
      | none => shellWriteOp s h vc)
  else shellAnswer s h vc nackPwr 0

/-- The length of a packet agrees with its opcode and SIZE, where both are listed (stage 2 of R65). -/
def lengthOk (h : BitVec 256) (n : Nat) : Bool :=
  match opInfo (hOpcode h) with
  | some i => !i.sizes.contains (hSize h) || n == payloadFlits (hOpcode h) (hSize h)
  | none => true

/-! ### The input -/

/-- The CRC of some flit fails, or an injected error makes it count as failing (13 R373). -/
def crcFails (s : State) (p : CPacket) : Bool := p.crcBad || injArmed s 11

/-- The packet's CRC, channel, sideband, framing and length are good. -/
def sound (p : CPacket) : Bool :=
  !p.crcBad && decide (p.vc.toNat < 5) && !p.sideRsvd && p.framed && ((p.vc.toNat != 0 && p.vc.toNat != 4) || lengthOk p.head p.payload.length)

/-- The packet passes stages 1 and 2 (R65, R75). -/
def wellReceived (s : State) (p : CPacket) : Bool := !injArmed s 11 && sound p

/-- A packet that fails stage 1 or 2 is dropped and logged (R65, R75; 13 R355). -/
def dropPacket (s : State) (p : CPacket) : State :=
  if crcFails s p then feedBucket (logErr (if injArmed s 11 then s.rgFld kInj 7 7 0 else s) 0x00 4 (mkFld 2 0 p.vc.toNat)) 11 1
  else logErr s 0x00 3 (infoMal p.head p.vc.toNat)

/-- The credits that the flits of a packet return to the slice on CRV, whatever else becomes of the flit (02 R42). -/
def takeCredits (s : State) (p : CPacket) : State :=
  p.flits.foldl (fun s f => if f.crv && decide (f.crvc.toNat < 5) then creditIn s f.crvc.toNat else s) s

/-- The credits of a packet's flits are owed once it has been sunk (02 R45), and those it returns are held. -/
def sink (s0 : State) (p : CPacket) : State :=
  let s := takeCredits s0 p
  if p.vc.toNat < 5 then oweCredits s p.vc.toNat p.flits.length else s

/-- The ports are in reset (02 R46). -/
def portsInReset (s : State) : Bool := inReset s

/-- A packet whose header is at the input in the current sclk. -/
def packetIn (s : State) (p : CPacket) : State :=
  if portsInReset s then s
  else
    let s1 := sink s p
    if byShell s1 then (if sound p then shellIn s1 p else s1)
    else if !wellReceived s1 p then dropPacket s1 p
    else if failed s1 && !((p.vc.toNat == 0 || p.vc.toNat == 4) && servedInFail p.head) then s1
    else if p.vc.toNat = 1 then logErr s1 0x00 3 (infoMal p.head 1)
    else if p.vc.toNat = 0 ∨ p.vc.toNat = 4 then requestIn s1 p
    else responseIn s1 p

/-- A packet whose header reaches the input lanes at sclk `t`. -/
def receive (s : State) (t : Nat) (p : CPacket) : State := packetIn (advance s t) p

end Sys2Proof.Machine
end

