-- ==== Sys2Proof/Machine/Refresh.lean ====
section
/-!
DEFINITION. Refresh rounds, the pass timer, the guard precharge and the temperature (04_thallus.md R118, R128-R131, R144).
-/

namespace Sys2Proof.Machine

/-- Retention interval in sclk for the HOT value in force (R128). -/
def tRet (s : State) : Nat := if s.rb (rk 0x03 0x05C) 8 then 25600000 else 51200000

/-- Refresh rounds of a window (R129). -/
def windowRounds (s : State) : Nat := reserve s / 192

/-- A round of the window of the current frame ends: rounds run one after another from frame sclk 0, in a self-timed frame behind the precharge
of all banks, 96 sclk each (R129, R130). -/
def refreshRoundOp (s : State) : State :=
  match s.frm.frame0 with
  | some f =>
    if !s.pwr.porst && s.thl.passHeld.isNone && decide (s.thl.rounds < windowRounds s) && decide (f + framePre s + 96 * (s.thl.rounds + 1) ≤ s.now) then
      roundDone { s with thl := { s.thl with rounds := s.thl.rounds + 1 } } (f + framePre s + 96 * (s.thl.rounds + 1))
    else s
  | none => s

/-- Time of the current pass in sclk; retention stops it (R132). -/
def passTime (s : State) : Nat := (match s.thl.passHeld with | some h => h | none => s.now) - s.thl.passStart

/-- The pass reaches 7/8 of its interval with rows remaining: catch-up rounds begin (R131). -/
def refLagOp (s : State) : State :=
  if logicRuns s && !s.thl.catchup && decide (tRet s * 7 / 8 ≤ passTime s) then
    logErr { s with thl := { s.thl with catchup := true } } 0x03 0 (mkFld 10 0 s.thl.refRow)
  else s

/-- The pass reaches its interval with rows remaining: fail-stop (R131). -/
def refMissOp (s : State) : State :=
  if logicRuns s && !failed s && decide (tRet s ≤ passTime s) then
    let info := mkFld 10 0 s.thl.refRow
    failStop (logErr s 0x03 1 info) 1 0x03 1 info
  else s

/-- The guard of the frame begins: every bank closes (R118), and vectors that a faulted frame leaves waiting end (08 R247). -/
def guardOp (s : State) : State :=
  match s.frm.frame0 with
  | some f =>
    if f + period s ≤ s.now + 64 then vaccGuard { s with thl := { s.thl with openRows := [] } } else s
  | none => s

/-- The sensor's reading in degrees Celsius, HOT above 85, OVER above 105; a rise of OVER is logged (R128, R144). -/
def tempOp (s : State) (deg : Nat) : State :=
  let k := rk 0x03 0x05C
  let was := s.rb k 9
  let s1 := s.rgSet k (BitVec.ofNat 32 (deg + mkFld 8 8 (b2n (decide (85 < deg))) + mkFld 9 9 (b2n (decide (105 < deg)))))
  if decide (105 < deg) && !was then logErr s1 0x03 6 (mkFld 7 0 deg) else s1

end Sys2Proof.Machine
end

