-- ==== Sys2Proof/WellFormed.lean ====
section
/-!
DEFINITION. Well-formed commands: every object that a command names by number is one the slice has (notes/assumptions/3.md).
-/

namespace Sys2Proof.Machine

/-- The action names an object the slice has. -/
def retireNames (b : Build) : RetireAct → Bool
  | .row t => decide (t < 10)
  | .engine e => decide (e < nEngines b)
  | .egressLane l => decide (l < 1088)
  | .tier t => decide (t < 10)
  | .rebuild p => decide (p < 9)
  | _ => true

end Sys2Proof.Machine

namespace Sys2Proof

/-- The command names only objects that a slice of build `b` has. -/
def Instr.wf (b : Build) (i : Instr) : Bool :=
  match i with
  | .cnetCreditRx _ vc => decide (vc < 5)
  | .bLate _ entry _ => decide (entry < 1024)
  | .intRetry _ page => decide (page < 18)
  | .errMaskWrite _ _ n => decide (n < 18)
  | .wideLowRead _ _ n => decide (n < 9)
  | .rgnShadowWrite _ _ n => decide (n < 128)
  | .egress _ entry => decide (entry < 1024)
  | .ingressStore _ entry => decide (entry < 1024)
  | .ingressAcc _ entry => decide (entry < 1024)
  | .openGroup _ entry => decide (entry < 1024)
  | .discard _ entry => decide (entry < 1024)
  | .storeRound _ entry => decide (entry < 1024)
  | .storeStats _ entry => decide (entry < 1024)
  | .closeForward _ entry => decide (entry < 1024)
  | .applyUpdate _ entry => decide (entry < 1024)
  | .forwardSend _ entry => decide (entry < 1024)
  | .forwardReceive _ entry => decide (entry < 1024)
  | .wakeTier _ entry => decide (entry < 1024)
  | .sleepTier _ entry => decide (entry < 1024)
  | .barrier _ entry => decide (entry < 1024)
  | .barTimeout _ entry => decide (entry < 1024)
  | .fence _ entry => decide (entry < 1024)
  | .pullPacketSend _ ctx => decide (ctx < 8)
  | .grantTmo _ req => decide (req < 10)
  | .leakTick _ dom => decide (dom < Machine.nDomains b)
  | .waitTmo _ slot => decide (slot < 64)
  | .stall _ slot => decide (slot < 64)
  | .domCfgWrite _ _ n => decide (n < Machine.nDomains b)
  | .atomicExec _ pos => decide (pos < Machine.nBanks b)
  | .bucketSteal _ pos => decide (pos < Machine.nBanks b)
  | .optSlotWrite _ _ n => decide (n < 144)
  | .allocWaitRetry _ slot => decide (slot < 64)
  | .fillTmo _ set way => decide (set < 512) && decide (way < 12)
  | .wbStall _ buf => decide (buf < 8)
  | .blockedStart _ slot => decide (slot < 64)
  | .blockTmo _ slot => decide (slot < 64)
  | .fwdTmo _ slot => decide (slot < 640)
  | .sprShadowWrite _ _ n => decide (n < 73)
  | .torifRetire _ act => Machine.retireNames b act
  | .tierWakeDone _ tier => decide (tier < 10)
  | .wakeTmo _ tier => decide (tier < 10)
  | .tierSleepDone _ tier => decide (tier < 10)
  | .pmuCntWrite _ _ n => decide (n < 16)
  | .pmuCfgWrite _ _ n => decide (n < 8)
  | .cntOvf _ n => decide (n < 8)
  | .evtSelWrite _ _ n => decide (n < 16)
  | .nop _ _ | .rd _ _ | .rdShared _ _ | .rdUnique _ _ | .rdNoalloc _ _ | .wr _ _ | .wrLine _ _ | .wbDirty _ _ | .wbClean _ _ | .atSwap _ _
    | .atCas _ _ | .atAddI _ _ | .atAddF32 _ _ | .atAddBf16x2 _ _ | .atMinI _ _ | .atMaxI _ _ | .atMinF _ _ | .atMaxF _ _ | .atAnd _ _
    | .atOr _ _ | .atXor _ _ | .atIncBound _ _ | .atVaddF32 _ _ | .atVacc _ _ | .mtCleanPa _ _ | .mtInvPa _ _ | .mtClinvPa _ _
    | .mtZeroPa _ _ | .mtCleanSw _ _ | .mtInvSw _ _ | .mtClinvSw _ _ | .stPull _ _ | .stPullAbort _ _ | .stPush _ _ | .regRd _ _ | .regWr _ _
    | .intReceived _ _ | .evtReceived _ _ | .fwdPacketRx _ _ | .rspCompRx _ _ | .datCompRx _ _ | .rspAckRx _ _ | .rspFwdDoneRx _ _
    | .rspFwdMissWbRx _ _ | .rspInvAckRx _ _ | .datSnpRx _ _ | .packetSend _ | .bFlitRx _ _ | .tick _ _ | .tickLost _ | .selfTimedFrame _
    | .barRelease _ _ | .quench _ | .quenchRelease _ | .wakeGnt _ _ _ | .faultRx _ _ _ | .faultRepeat _ | .abiSelWrite _ _
    | .fusedOffRequest _ _ | .shellRequest _ _ | .rgnCommitArm _ _ | .rgnCommitCheckEnd _ | .rgnCommitNow _ _ | .rgnCommitCancel _ _
    | .thlReadComplete _ | .refreshRound _ | .refLag _ | .refMiss _ | .guardPrecharge _ | .tempUpdate _ _ | .thlInitStart _ | .thlInitEnd _
    | .tierFailWrite _ _ | .loadOpen _ _ | .loadValidate _ _ | .loadAbort _ _ | .loadDataWrite _ _ | .loadDataRead _ _ | .validationEnd _
    | .tickPeriodWrite _ _ | .unschedMinWrite _ _ | .energyCapWrite _ _ | .refreshReserveWrite _ _ | .vaccGrant _ | .accInitDone _
    | .accCtlWrite _ _ | .accCntClr _ _ | .accDbgRead _ _ | .decCtlWrite _ _ | .decCntClr _ _ | .arbDecision _ | .arbCommit _ _
    | .arbCntClr _ _ | .scrubRead _ | .patrolRead _ | .wdogExp _ | .wdogKick _ _ | .fsForce _ _ | .rasCntClr _ _ | .bktClr _ _
    | .scrubRestart _ _ | .injArm _ _ | .mapCommitArm _ _ | .mapCommitNow _ _ | .mapCommitCancel _ _ | .updCntClr _ _ | .cacheInitDone _
    | .hostAgentWrite _ _ | .cchCntClr _ _ | .cchDbgRead _ _ | .dirInitDone _ | .dirWayRetire _ _ | .dirSweepEnd _ | .dirCntClr _ _
    | .dirDbgRead _ _ | .sprCommitArm _ _ | .sprCheckEnd _ | .sprCommitNow _ _ | .sprCommitCancel _ _ | .rebuildStart _ _ | .rebuildPause _ _
    | .rebuildResume _ _ | .rebuildAbort _ _ | .doorbellRing _ _ _ | .inDataWrite _ _ _ | .outDataRead _ _ _ | .outAck _ _ _ | .inAbort _ _ _
    | .lockRead _ _ _ | .lockWrite _ _ _ | .lockExpired _ _ | .mbxCtlWrite _ _ _ | .smcPopInbound _ _ | .smcPushOutbound _ _ _
    | .smcAckInbound _ _ | .version _ _ | .ping _ _ | .frameCopy _ _ | .engDomainOff _ _ | .engDomainOn _ _ | .smcDomainOff _ _
    | .smcDomainOn _ _ | .domainSwitchDone _ | .tierWakeCmd _ _ | .tierSleepCmd _ _ | .tierOffCmd _ _ | .wakeStart _ | .wakeReqResend _
    | .retainEnter _ _ | .retainExit _ _ | .porstNAssert _ | .porstNRelease _ _ | .wrstNAssert _ | .wrstNRelease _ | .rstCtlCold _ _
    | .rstCtlWarm _ _ | .rstCtlFrame _ _ | .rstCtlSmc _ _ | .orderedResetRelease _ | .pmuCntClr _ _ | .dbgModeWrite _ _ | .dbgHalt _ _
    | .dbgResume _ _ | .dbgStep _ _ | .trcClr _ _ | .trcData0Read _ _ | .trcData3Read _ _ | .snetMessageDiscard _ _ _ | .snetMessageSend _ => true

end Sys2Proof
end

