-- ==== Sys2Proof/Machine/Retire.lean ====
section
/-!
DEFINITION. What Torif firmware does on an error record, and its REPORT to the host (14_sparing_rebuild.md R392; 15_mailboxes_smc.md R417).
Torif acts with S = 1 and ring 0, so its register writes are the block's own operations. The trigger of each row of R392 is checked here:
without it nothing happens.
-/

namespace Sys2Proof.Machine

/-- SPR.POLICY field. -/
def policy (s : State) (hi lo : Nat) : Nat := s.rf (rk 0x0A 0x064) hi lo

/-- OVF_CNT of a RAS domain has reached a threshold that is not 0. -/
def ovfReached (s : State) (d lim : Nat) : Bool := decide (lim ≠ 0) && decide (lim ≤ s.rf (rk 0x09 (0x104 + 8 * d)) 23 16)

/-- Clear DOM_STAT.OVF of a domain. -/
def clearOvf (s : State) (d : Nat) : State := s.rgFld (rk 0x09 (0x104 + 8 * d)) 31 31 0

/-- T9 is free: it serves nothing, rebuilds nothing and has not failed. -/
def t9Free (s : State) : Bool := s.spr.rebuild == .idle && !s.spr.serves && !tierFailed s 9

/-- INFO of a page's first error. -/
def firstInfo (s : State) (page : Nat) : Word := BitVec.ofNat 32 (s.rf (rk page 0x018) 23 0)

/-- Push a REPORT on channel `MBN` (15 R417): without room in the queue it is not made (notes/assumptions/21.md). -/
def report (s : State) (kind what : Nat) (w1 : Word) : State :=
  let seq := (s.mbn.outLast + 1) % 256
  (mbxSend s false [BitVec.ofNat 32 (seq + mkFld 10 8 2 + mkFld 31 16 0x20), BitVec.ofNat 32 (kind + what * 256), w1]).1

/-- The row that a tier's record names, when R392 wants it remapped: bank and row. -/
def badRow (s : State) (t : Nat) : Option (Nat × Nat) :=
  let w := s.rg (rk 0x0A (0x06C + 4 * t))
  let lim := policy s 3 0
  if bit w 31 && !bit w 14 && s.rb (rk 0x09 (0x104 + 8 * t)) 31 && decide (lim ≠ 0) && decide (lim ≤ fld w 23 16) then
    some (fld w 13 10, fld w 9 0)
  else none

/-- Torif commits again from the active copies: an active CAM entry, and a lane entry that has no shadow, is copied into the shadow copy first
(R383). -/
def fromActive (s : State) : State :=
  { s with spr := { s.spr with
    camShd := (s.spr.camAct.filter fun e => bit e.2 31).foldl (fun m e => smSet m e.1 e.2 0) s.spr.camShd
    laneShd := s.spr.laneAct.foldl (fun m e => if smGetD m e.1 0 = 0 then smSet m e.1 e.2 0 else m) s.spr.laneShd } }

/-- The lowest CAM entry and sorus row of a bank that are free in both copies. -/
def freeSorus (s : State) (t bank : Nat) : Option (Nat × Nat) :=
  let used := (List.range 64).flatMap fun n => [camShd s t n, camAct s t n].filterMap fun w =>
    let (v, b, _, sp) := camEntry w
    if v && b == bank then some sp else none
  match (List.range 64).find? (fun n => !bit (camShd s t n) 31 && !bit (camAct s t n) 31), (List.range 8).find? (fun k => !used.contains k) with
  | some n, some k => some (n, k)
  | _, _ => none

/-- Remap the recorded row of tier t and commit. -/
def retireRow (s : State) (t : Nat) : State :=
  match badRow s t with
  | none => s
  | some (bank, row) =>
    match freeSorus s t bank with
    | none => s
    | some (n, k) =>
      if s.spr.pending then s
      else
        let w : Word := BitVec.ofNat 32 (0x80000000 + row + bank * 1024 + k * 16384)
        let s0 := fromActive (s.rgFld (rk 0x0A 0x04C) 3 0 t)
        let s1 := { s0 with spr := { s0.spr with camShd := smSet s0.spr.camShd (t * 64 + n) w 0 } }
        report (clearOvf (sprArm s1) t) 1 t (firstInfo s1 0x09)

/-- Declare tier t failed when no spare row remains for its record. -/
def retireTier (s : State) (t : Nat) : State :=
  match badRow s t with
  | none => s
  | some (bank, _) =>
    if (freeSorus s t bank).isNone && bit (s.rg (rk 0x0A 0x064)) 16 && t9Free s then
      let s1 := declareTier s t 1
      report (clearOvf s1 t) 3 t (firstInfo s1 0x03)
    else s

/-- Start a rebuild of position p after its tier was declared failed. -/
def retireRebuild (s : State) (p : Nat) : State :=
  if tierFailed s p && bit (s.rg (rk 0x0A 0x064)) 17 && t9Free s && rebuildMay s p then
    let s1 := rebuildGo (s.rgFld (rk 0x0A 0x054) 7 4 p) p
    report s1 4 p (firstInfo s1 0x0A)
  else s

/-- Engine of a position in the active map. -/
def actEng (s : State) (p : Nat) : Nat := s.rf (rk 0x06 (0x05C + 4 * (p / 6))) (5 * (p % 6) + 4) (5 * (p % 6))

/-- Retire a physical engine and commit a map that names the lowest free spare in its place; without a spare it stays in service. -/
def retireEngine (s : State) (e : Nat) : State :=
  let nb := nBanks s.straps.build
  let used := (List.range nb).map (actEng s)
  let spare := (List.range (nEngines s.straps.build)).find? fun q => !used.contains q && !s.rb (rk 0x06 0x068) q && q != e
  if !ovfReached s (20 + e) (policy s 7 4) || !engOn s || s.upd.mapAt.isSome then s
  else match spare with
    | none => s
    | some q =>
      let s1 := engRetire s (BitVec.ofNat 32 (2 ^ e))
      let s2 := (List.range nb).foldl (fun s p =>
        s.rgFld (rk 0x06 (0x050 + 4 * (p / 6))) (5 * (p % 6) + 4) (5 * (p % 6)) (if actEng s p = e then q else actEng s p)) s1
      let s3 := match mapFault s2 with
        | some (p, x) => mapRefuse s2 p x
        | none => { s2 with upd := { s2.upd with mapAt := some s2.now } }
      report (clearOvf s3 (20 + e)) 2 (20 + e) (BitVec.ofNat 32 e)

/-- A record of correctable words names a way to retire: the way. -/
def badWay (s : State) (ofs : Nat) (doms : List Nat) : Option Nat :=
  let w := s.rg (rk 0x0A ofs)
  let lim := policy s 11 8
  if bit w 31 && decide (lim ≤ fld w 23 16) && doms.any (fun d => ovfReached s d lim) then some (fld w 12 9) else none

/-- Retire the recorded directory way (12 R344); a refused write leaves everything. -/
def retireDirWay (s : State) : State :=
  match badWay s 0x0D4 [14] with
  | none => s
  | some w =>
    match wayRetireOp s (BitVec.ofNat 32 (2 ^ w)) with
    | (s1, 0) => report (clearOvf (s1.rgSet (rk 0x0A 0x0D4) 0) 14) 7 14 (BitVec.ofNat 32 w)
    | _ => s

/-- Header of the `MT_CLINV_SW` that Torif sends for a way of a set (02 R60; 15 R395). -/
def clinvHead (s : State) (set way : Nat) : BitVec 256 :=
  mkHead 0x25 0 (mkFld 2 2 1 + mkFld 6 5 1 + mkFld 9 7 7) 0x21 (3, s.straps.tile, s.straps.chip) (own s) 0 (set + way * 2 ^ 16)

/-- Take the recorded cache way out of the four way masks, then send `MT_CLINV_SW` for it in every set, each when the one before has been
answered; once all have, the record is cleared and reported. -/
def retireCacheWay (s : State) : State :=
  match s.spr.wayOut with
  | some (w, set, out) =>
    if out then s
    else if set < 512 then requestIn { s with spr := { s.spr with wayOut := some (w, set, true) } } (mkPacket 0 (clinvHead s set w) [])
    else
      let s1 := { s with spr := { s.spr with wayOut := none } }
      report (clearOvf (clearOvf (s1.rgSet (rk 0x0A 0x0D8) 0) 12) 13) 7 13 (BitVec.ofNat 32 w)
  | none =>
    match badWay s 0x0D8 [12, 13] with
    | none => s
    | some w =>
      let s1 := (List.range 4).foldl (fun s i => s.rgFld (rk 0x04 (0x04C + 4 * i)) w w 0) s
      { s1 with spr := { s1.spr with wayOut := some (w, 0, false) } }

/-- The lowest spare whose entry, valid at bit b, is free in both copies of the lane map. -/
def freeSpare (s : State) (b : Nat) : Option Nat :=
  (List.range 8).find? fun n => !bit (smGetD s.spr.laneShd n 0) b && !bit (smGetD s.spr.laneAct n 0) b

/-- Map a lane onto spare n and commit: `lo` is 0 for ingress and 16 for egress. -/
def mapLane (s : State) (lo n lane : Nat) : State :=
  let s0 := fromActive s
  let x := setFld (setFld (smGetD s0.spr.laneShd n 0) (lo + 10) lo lane) (lo + 15) (lo + 15) 1
  report (sprArm { s0 with spr := { s0.spr with laneShd := smSet s0.spr.laneShd n x 0 } }) 6 n (BitVec.ofNat 32 lane)

/-- Header of a register write of the slice's own SMC. -/
def torifHead (s : State) : BitVec 256 := mkHead 0x31 0 (mkFld 2 2 1 + mkFld 6 5 1 + mkFld 9 7 2) 0x20 (3, s.straps.tile, s.straps.chip) (own s) 0 0

/-- Map the suspect ingress lane onto the lowest free spare and commit; without a spare Torif forces fail-stop (13 R371). -/
def retireLane (s : State) : State :=
  let w := s.rg (rk 0x0A 0x068)
  let lim := policy s 15 12
  let lane := fld w 10 0
  if !bit w 31 || decide (lim = 0) || decide (fld w 23 16 < lim) then s
  else
    match freeSpare s 15 with
    | none => forceOp s (torifHead s)
    | some n => if s.spr.pending then s else mapLane (s.rgSet (rk 0x0A 0x068) 0) 0 n lane

/-- Map a reported egress lane onto the lowest free spare of that direction and commit; without a spare Torif forces fail-stop. A threshold of
0 disables the row. -/
def retireEgress (s : State) (lane : Nat) : State :=
  if policy s 15 12 = 0 then s
  else match freeSpare s 31 with
    | none => forceOp s (torifHead s)
    | some n => if s.spr.pending then s else mapLane s 16 n lane

/-- Torif acts on a record, while the SMC runs. -/
def torifRetireOp (s : State) (act : RetireAct) : State :=
  if !smcRuns s || !logicRuns s then s
  else match act with
    | .row t => retireRow s t
    | .engine e => retireEngine s e
    | .dirWay => retireDirWay s
    | .cacheWay => retireCacheWay s
    | .lane => retireLane s
    | .egressLane l => retireEgress s l
    | .tier t => retireTier s t
    | .rebuild p => retireRebuild s p

end Sys2Proof.Machine
end

