-- ==== Sys2Proof/Machine/Sending.lean ====
section
/-!
DEFINITION. What leaves the slice: output packets, S-net messages, credits of the next hop, and the retries of INT (02_fabric_interface.md
R45, R67, R71, R499; 18_pmu_debug_events.md R466, R467, R478).
-/

namespace Sys2Proof.Machine

/-- A packet that carries a response code to a requester. -/
def isResponse (h : BitVec 256) : Bool := hOpcode h == 0x50 || hOpcode h == 0x51 || hOpcode h == 0x58

/-- A response leaves: it counts as a NACK or as poison, and a NACK is captured (18 R467, R478). -/
def noteResponse (s : State) (o : OutPkt) : State :=
  let h := o.head
  if hResp h = okPoison then pmuReq s 0x63 h
  else if okPoison < hResp h then
    trace (pmuReq s 0x51 h) 3 0
      (mkFld 3 0 (hResp h) + mkFld 10 4 o.op + mkFld 12 11 (fld h 75 74) + mkFld 22 13 (fld h 73 64) + mkFld 30 23 (hTxn h))
  else s

/-- A request of the slice's own leaves. Its timeout has been running since it could leave (R74). -/
def noteRequest (s : State) (h : BitVec 256) : State :=
  let s1 := pmuEv s 0x52 1
  if hOpcode h = 0x38 then pmuEv s1 0x56 1
  else if hOpcode h = 0x39 then pmuEv s1 0x54 1
  else s1

/-- What a packet that has been put on the lanes counts as, and what it brings to the pull it belongs to. -/
def notePacket (s : State) (o : OutPkt) : State :=
  let s1 := if isResponse o.head then noteResponse s o else s
  let s2 := if o.vc = 0 then noteRequest s1 o.head else if o.vc = 1 then msgLeft s1 o else answerLeft s1 o
  let s3 := match o.order with | some (.reset k) => orderReset s2 k s2.now | some .retain => retainEnterOp s2 | none => s2
  match o.pull with
  | some c => if hOpcode o.head = 0x58 then pullSent s3 c o else s3
  | none => s3

/-- At a packet boundary of the free output lanes the slice starts the packet R499 chooses. -/
def packetSendOp (s : State) : State :=
  if inReset s || decide (s.now < s.fab.laneFree) then s
  else match choosePacket s with
    | some (i, o) => notePacket (putOnLanes s i o) o
    | none => s

/-- When the S-net output is free, the slice starts the message R71 chooses. -/
def snetSendOp (s : State) : State :=
  if inReset s || decide (s.now < s.fab.sFree) then s
  else match chooseSnet s with
    | some (i, m) => putOnSnet s i m
    | none => s

/-- The INT of a page is sent again 1,024 sclk after its attempt failed (R67). -/
def intRetryOp (s : State) (page : Nat) : State :=
  match s.fab.ints.find? fun i => i.page == page && (match i.failedAt with | some f => decide (f + 1024 ≤ s.now) | none => false) with
  | none => s
  | some i =>
    if !logicRuns s || failed s then s
    else sendInt { s with fab := { s.fab with ints := s.fab.ints.erase i } } { i with attempts := i.attempts + 1 } s.now

end Sys2Proof.Machine
end

