-- ==== Sys2Proof/Machine/Events.lean ====
section
/-!
DEFINITION. Shared operations of the commands that stand for events inside the slice: when LOGIC can act, the fronds of a frame, timers, and
the queues of the home and the engines.
-/

namespace Sys2Proof.Machine

/-- LOGIC works: it runs, it has not failed, and retention has not taken the ports (13 R369; 16 R423, R436). -/
def works (s : State) : Bool := logicRuns s && !failed s && !shellServes s

/-- An event inside LOGIC happens while LOGIC works. -/
def live (s r : State) : State := if works s then r else s

/-- An event of the always-on part happens unless PORST_N is asserted or the slice is fused off. -/
def powered (s r : State) : State := if s.pwr.porst || s.straps.fused then s else r

/-- Request that reaches the shell of a slice (16 R423). -/
def shellOp (s : State) (p : CPacket) : State := if shellServes s && !s.straps.fused then packetIn s p else s

/-- Request that reaches a fused-off slice (00 R17). -/
def fusedOp (s : State) (p : CPacket) : State := if s.straps.fused then packetIn s p else s

/-! ### Frames -/

/-- Entry n of the running frame acts up to the current sclk, after everything that was due before (notes/assumptions/20.md); `ok` says which
entries the command means. -/
def frondOp (s : State) (n : Nat) (ok : Ent → Bool) : State :=
  if works s && inProgram s n && ok (actEnts s n) then runFrond (catchUp s s.now) n else s

/-- An entry of a kind. -/
def ofKind (k : Nat) (e : Ent) : Bool := eKind e == k
/-- A CLOSE_GROUP of an action. -/
def ofClose (a : Nat) (e : Ent) : Bool := eKind e == 5 && eAction e == a
/-- A FORWARD of a direction. -/
def ofForward (d : Nat) (e : Ent) : Bool := eKind e == 6 && eDir e == d

/-- The sclk in which an ingress frond consumes beat k has come without it (02 R39). -/
def lateOp (s : State) (n k : Nat) : State :=
  let e := actEnts s n
  let ing := ofKind 2 e || ofKind 3 e || ofForward 1 e
  if ing && decide (k < eBeats e) && decide (frameAt s (eStart e + k * ePace e) ≤ s.now) then frondOp s n fun _ => true else s

/-- The controller times a frame start itself. While LOGIC is in reset or failed only the refresh timing goes on (04 R130, R132; 13 R369). -/
def selfTimedOp (s : State) : State :=
  match s.frm.frame0 with
  | none => s
  | some f =>
    if s.pwr.porst || !s.pwr.logic then s
    else if works s then selfFrameOp s
    else if f + period s ≤ s.now then
      { s with frm := { s.frm with frame0 := some (f + period s), selfTimed := true }, thl := { s.thl with rounds := 0, openRows := [] } }
    else s

/-! ### The home, the cache and the engines -/

/-- A fill from the host agent has had no answer within the C-net response timeout (11 R305); of a prefetch that no request
waits for nothing is logged (11 R308; DEDUCED, notes/assumptions/60.md). -/
def fillTmoOp (s : State) (set way : Nat) : State :=
  match fillOf s set way with
  | some f =>
    if f.txn.isSome && decide (f.since + cnetLimit s f.since ≤ s.now) then
      let logs := !f.pf || !(fillWaiters s set way).isEmpty
      fillFailed (if logs then logErr s 0x04 2 (mkFld 8 0 set + mkFld 12 9 way + mkFld 13 13 (b2n f.pf)) else s) set way nackTmo
    else s
  | none => s

/-- The writeback of a buffer line has had no answer, or its last answer was a NACK 1,024 sclk ago: it is sent again (11 R306). -/
def wbStallOp (s : State) (b : Nat) : State :=
  let late := fun (s : State) => match smGet s.cch.wb b with
    | some e => if e.space && e.failedAt.isNone && decide (e.since + cnetLimit s e.since ≤ s.now) then wbFailed s b (e.since + cnetLimit s e.since) else s
    | none => s
  let s1 := late s
  match smGet s1.cch.wb b with
  | some e => (match e.failedAt with | some f => if f + 1024 ≤ s1.now then startWb s1 b e else s1 | none => s1)
  | none => s1

/-- A blocked request has waited BLOCK_LIMIT: it is removed and answered (12 R331). -/
def blockTmoOp (s : State) (slot : Nat) : State :=
  match getReq s slot with
  | none => s
  | some r =>
    match r.phase with
    | .blocked n =>
      if s.now < n + blockLimit s n then s
      else
        let h := r.head
        let s1 := logErr s 0x05 2 (mkFld 6 0 (hOpcode h) + mkFld 16 7 (hSrcId h) + mkFld 18 17 (hSrcType h))
        homeComp { s1 with dir := { s1.dir with blocked := s1.dir.blocked.filter (· != slot) } } slot nackTmo (s1.now + 1)
    | _ => s

/-- Ways being swept whose entries are all gone leave the sweep (12 R344). -/
def dirSweepOp (s : State) : State :=
  let s1 := sweepStep s
  let left := (List.range 9).filter fun w => s1.dir.sweep.testBit w && s1.dir.ents.any fun e => e.1 % 16 == w
  { s1 with dir := { s1.dir with sweep := (left.map (2 ^ ·)).sum } }

/-- A slot of the bank of a position is taken in the current sclk (01 R22; 10 R269). -/
def bankTaken (s : State) (p : Nat) : Bool := bankBusy s p s.now

/-- The position has used the current sclk for a step of an atomic. -/
def engStepped (s : State) (p : Nat) : State := { s with upd := { s.upd with started := smPut s.upd.started p s.now } }

/-- The engine of a position makes its next step in a claim-free sclk of its bank, one in an sclk: the second execution of an atomic that
mismatched, else the next atomic of its queue (10 R269-R271, R283). -/
def atomicExecOp (s : State) (p : Nat) : State :=
  if !engReady s || bankTaken s p || smGet s.upd.started p == some s.now then s
  else match (posFlights s p).find? fun f => f.miss != 0 with
    | some f => engStepped (againAtomic s p f) p
    | none =>
      match engQueue s p with
      | slot :: _ =>
        let s1 := if (match getReq s slot with | some r => pastStages s r | none => true) then startAtomic s p slot else s
        if engQueue s1 p == engQueue s p then s1 else engStepped s1 p
      | [] => s

/-! ### The SMC -/

/-- Torif acts while the SMC runs. -/
def smcOp (s r : State) : State := if smcRuns s && works s then r else s

/-- Header of the `ST_PULL` that FRAME_COPY sends (R395, R419). -/
def copyHead (s : State) (secure : Bool) (line lines : Nat) : BitVec 256 :=
  mkHead 0x28 0 (mkFld 2 2 (b2n secure) + mkFld 6 5 2 + mkFld 9 7 7) 0x20 (3, s.straps.tile, s.straps.chip) (own s)
    (s.straps.chip * 2 ^ 37 + s.straps.tile * 2 ^ 29 + line * 128) lines

/-- FRAME_COPY begins: the half is opened, and the image's `ST_PULL` takes the check stages as any requester's does (15 R395, R419). -/
def copyStart (s : State) (secure : Bool) (m : MbxMsg) : State :=
  let line := fld (mbxWord m 0) 19 0
  let count := fld (mbxWord m 1) 9 0
  match loadOpenOp s with
  | (_, false) => (torifReply s secure m 0x8010 [replyWord m 4 0] false).1
  | (s1, true) =>
    requestIn { s1 with frm := { s1.frm with copy := some { secure := secure, left := 8 * (count + 1), code := none, checking := false } } }
      (mkPacket 0 (copyHead s1 secure line (cdiv (32 * (count + 1)) 128)) [])

/-- FRAME_COPY goes on: the pull's refusal is the reply; once it has ended, the validation is started, and its result is the reply
(15 R419). -/
def copyGoOn (s : State) (c : CopySt) (m : MbxMsg) : State :=
  let done := fun (r : State × Bool) => if r.2 then { r.1 with frm := { r.1.frm with copy := none } } else s
  match c.code with
  | none => s
  | some n =>
    if okPoison < n then done (torifReply s c.secure m 0x8010 [replyWord m 5 (mkFld 23 16 n)] true)
    else if !c.checking then
      let s1 := (loadValidateOp s c.secure).1
      { s1 with frm := { s1.frm with copy := some { c with checking := true } } }
    else if s.frm.inact = .validating then s
    else
      let v := s.rg (rk 0x01 0x064)
      done (torifReply s c.secure m 0x8010 [replyWord m (if fld v 7 0 = 0 then 0 else 5) 0, v] true)

/-- FRAME_COPY (15 R419), a step at a time: one copy is under way at once. -/
def torifCopyOp (s : State) (secure : Bool) : State :=
  torifServe s secure 0x10 fun s m =>
    match s.frm.copy with
    | none => copyStart s secure m
    | some c => if c.secure == secure then copyGoOn s c m else s

/-- The action of a TORIF_RETIRE, when the slice has what it names. -/
def retireOut (s a : State) (act : RetireAct) : Host.Outcome State Fault Refusal :=
  if retireNames s.straps.build act then ran s (torifRetireOp a act)
  else .fault (.noSuchObject "retired part" (match act with | .row t => t | .engine e => e | .egressLane l => l | .tier t => t | .rebuild p => p | _ => 0))

end Sys2Proof.Machine
end

