-- ==== Sys2Proof/Machine/Boundary.lean ====
section
/-!
DEFINITION. Power, wakes and resets: one meaning for each command.
-/

namespace Sys2Proof.Machine

/-- Meaning of DOMAIN_SWITCH_DONE (16_power_clocks_reset.md R434). -/
def execDomainSwitchDone (t : Nat) (s : State) : Host.Outcome State Fault Refusal :=
  let a := advance s t
  ran s (powered a (domainDone a))

/-- Meaning of WAKE_START (16_power_clocks_reset.md R429). -/
def execWakeStart (t : Nat) (s : State) : Host.Outcome State Fault Refusal :=
  let a := advance s t
  ran s (powered a (governor a))

/-- Meaning of TIER_WAKE_DONE (16_power_clocks_reset.md R426). -/
def execTierWakeDone (t : Nat) (tier : Nat) (s : State) : Host.Outcome State Fault Refusal :=
  let a := advance s t
  runOn s "tier" tier 10 (powered a (wakeDoneOp a tier))

/-- Meaning of WAKE_TMO (16_power_clocks_reset.md R431). -/
def execWakeTmo (t : Nat) (tier : Nat) (s : State) : Host.Outcome State Fault Refusal :=
  let a := advance s t
  runOn s "tier" tier 10 (powered a (wakeTmoOp a tier))

/-- Meaning of TIER_SLEEP_DONE (16_power_clocks_reset.md R427). -/
def execTierSleepDone (t : Nat) (tier : Nat) (s : State) : Host.Outcome State Fault Refusal :=
  let a := advance s t
  runOn s "tier" tier 10 (powered a (sleepDoneOp a tier))

/-- Meaning of WAKE_REQ_RESEND (16_power_clocks_reset.md R430). -/
def execWakeReqResend (t : Nat) (s : State) : Host.Outcome State Fault Refusal :=
  let a := advance s t
  ran s (powered a (resendOp a))

/-- Meaning of PORST_N_ASSERT (16_power_clocks_reset.md R442). -/
def execPorstNAssert (t : Nat) (s : State) : Host.Outcome State Fault Refusal :=
  ran s (porstAssertOp (advance s t))

/-- Meaning of PORST_N_RELEASE (16_power_clocks_reset.md R443). -/
def execPorstNRelease (t : Nat) (good : BitVec 256) (s : State) : Host.Outcome State Fault Refusal :=
  ranBoot s (porstReleaseOp (advance s t) good)

/-- Meaning of WRST_N_ASSERT (16_power_clocks_reset.md R442). -/
def execWrstNAssert (t : Nat) (s : State) : Host.Outcome State Fault Refusal :=
  ran s (wrstAssertOp (advance s t))

/-- Meaning of WRST_N_RELEASE (16_power_clocks_reset.md R443). -/
def execWrstNRelease (t : Nat) (s : State) : Host.Outcome State Fault Refusal :=
  ran s (wrstReleaseOp (advance s t))

/-- Meaning of ORDERED_RESET_RELEASE (16_power_clocks_reset.md R441). -/
def execOrderedResetRelease (t : Nat) (s : State) : Host.Outcome State Fault Refusal :=
  ran s (orderedRelease (advance s t))

end Sys2Proof.Machine
end

