-- ==== Sys2Proof/Machine/Frames.lean ====
section
/-!
DEFINITION. Frames, fronds and the B-net input: one meaning for each command.
-/

namespace Sys2Proof.Machine

/-- Meaning of B_FLIT_RX (02_fabric_interface.md R37). -/
def execBFlitRx (t : Nat) (f : BFlit) (s : State) : Host.Outcome State Fault Refusal :=
  ran s (bFlitOp (advance s t) f)

/-- Meaning of B_LATE (02_fabric_interface.md R39). -/
def execBLate (t : Nat) (entry beat : Nat) (s : State) : Host.Outcome State Fault Refusal :=
  runOn s "frame memory entry" entry 1024 (lateOp (advance s t) entry beat)

/-- Meaning of TICK_LOST (02_fabric_interface.md R72). -/
def execTickLost (t : Nat) (s : State) : Host.Outcome State Fault Refusal :=
  let a := advance s t
  ran s (live a (tickLostOp a))

/-- Meaning of SELF_TIMED_FRAME (04_thallus.md R130). -/
def execSelfTimedFrame (t : Nat) (s : State) : Host.Outcome State Fault Refusal :=
  ran s (selfTimedOp (advance s t))

/-- Meaning of VALIDATION_END (05_frames_and_fronds.md R169). -/
def execValidationEnd (t : Nat) (s : State) : Host.Outcome State Fault Refusal :=
  let a := advance s t
  ran s (live a (validationEndOp a))

/-- Meaning of EGRESS (05_frames_and_fronds.md R158). -/
def execEgress (t : Nat) (entry : Nat) (s : State) : Host.Outcome State Fault Refusal :=
  runOn s "frame memory entry" entry 1024 (frondOp (advance s t) entry (ofKind 1))

/-- Meaning of INGRESS_STORE (06_streams.md R191). -/
def execIngressStore (t : Nat) (entry : Nat) (s : State) : Host.Outcome State Fault Refusal :=
  runOn s "frame memory entry" entry 1024 (frondOp (advance s t) entry (ofKind 2))

/-- Meaning of INGRESS_ACC (06_streams.md R192). -/
def execIngressAcc (t : Nat) (entry : Nat) (s : State) : Host.Outcome State Fault Refusal :=
  runOn s "frame memory entry" entry 1024 (frondOp (advance s t) entry (ofKind 3))

/-- Meaning of OPEN_GROUP (08_accumulation.md R226). -/
def execOpenGroup (t : Nat) (entry : Nat) (s : State) : Host.Outcome State Fault Refusal :=
  runOn s "frame memory entry" entry 1024 (frondOp (advance s t) entry (ofKind 4))

/-- Meaning of DISCARD (08_accumulation.md R237). -/
def execDiscard (t : Nat) (entry : Nat) (s : State) : Host.Outcome State Fault Refusal :=
  runOn s "frame memory entry" entry 1024 (frondOp (advance s t) entry (ofClose 0))

/-- Meaning of STORE_ROUND (08_accumulation.md R238). -/
def execStoreRound (t : Nat) (entry : Nat) (s : State) : Host.Outcome State Fault Refusal :=
  runOn s "frame memory entry" entry 1024 (frondOp (advance s t) entry (ofClose 1))

/-- Meaning of STORE_STATS (08_accumulation.md R241). -/
def execStoreStats (t : Nat) (entry : Nat) (s : State) : Host.Outcome State Fault Refusal :=
  runOn s "frame memory entry" entry 1024 (frondOp (advance s t) entry (ofClose 2))

/-- Meaning of CLOSE_FORWARD (08_accumulation.md R237). -/
def execCloseForward (t : Nat) (entry : Nat) (s : State) : Host.Outcome State Fault Refusal :=
  runOn s "frame memory entry" entry 1024 (frondOp (advance s t) entry (ofClose 3))

/-- Meaning of APPLY_UPDATE (10_update_engines.md R290). -/
def execApplyUpdate (t : Nat) (entry : Nat) (s : State) : Host.Outcome State Fault Refusal :=
  runOn s "frame memory entry" entry 1024 (frondOp (advance s t) entry (ofClose 4))

/-- Meaning of FORWARD_SEND (08_accumulation.md R244). -/
def execForwardSend (t : Nat) (entry : Nat) (s : State) : Host.Outcome State Fault Refusal :=
  runOn s "frame memory entry" entry 1024 (frondOp (advance s t) entry (ofForward 0))

/-- Meaning of FORWARD_RECEIVE (08_accumulation.md R245). -/
def execForwardReceive (t : Nat) (entry : Nat) (s : State) : Host.Outcome State Fault Refusal :=
  runOn s "frame memory entry" entry 1024 (frondOp (advance s t) entry (ofForward 1))

/-- Meaning of WAKE_TIER (05_frames_and_fronds.md R174). -/
def execWakeTier (t : Nat) (entry : Nat) (s : State) : Host.Outcome State Fault Refusal :=
  runOn s "frame memory entry" entry 1024 (frondOp (advance s t) entry (ofKind 7))

/-- Meaning of SLEEP_TIER (05_frames_and_fronds.md R174). -/
def execSleepTier (t : Nat) (entry : Nat) (s : State) : Host.Outcome State Fault Refusal :=
  runOn s "frame memory entry" entry 1024 (frondOp (advance s t) entry (ofKind 8))

/-- Meaning of BARRIER (05_frames_and_fronds.md R179). -/
def execBarrier (t : Nat) (entry : Nat) (s : State) : Host.Outcome State Fault Refusal :=
  runOn s "frame memory entry" entry 1024 (frondOp (advance s t) entry (ofKind 9))

/-- Meaning of BAR_TIMEOUT (05_frames_and_fronds.md R179). -/
def execBarTimeout (t : Nat) (entry : Nat) (s : State) : Host.Outcome State Fault Refusal :=
  let a := advance s t
  runOn s "frame memory entry" entry 1024 (live a (barTimeoutOp a entry))

/-- Meaning of FENCE (05_frames_and_fronds.md R180). -/
def execFence (t : Nat) (entry : Nat) (s : State) : Host.Outcome State Fault Refusal :=
  runOn s "frame memory entry" entry 1024 (frondOp (advance s t) entry (ofKind 10))

end Sys2Proof.Machine
end

