-- ==== Sys2Proof/Machine/Mailboxes.lean ====
section
/-!
DEFINITION. The mailboxes, the SMC and its firmware: one meaning for each command.
-/

namespace Sys2Proof.Machine

/-- Meaning of TORIF_RETIRE (14_sparing_rebuild.md R392). -/
def execTorifRetire (t : Nat) (act : RetireAct) (s : State) : Host.Outcome State Fault Refusal :=
  retireOut s (advance s t) act

/-- Meaning of DOORBELL_RING (15_mailboxes_smc.md R398). -/
def execDoorbellRing (t : Nat) (p : CPacket) (secure : Bool) (s : State) : Host.Outcome State Fault Refusal :=
  ran s (receive s t (actOf p (mbxPage secure) 0x040 [0] []))

/-- Meaning of IN_DATA_WRITE (15_mailboxes_smc.md R400). -/
def execInDataWrite (t : Nat) (p : CPacket) (secure : Bool) (s : State) : Host.Outcome State Fault Refusal :=
  ran s (receive s t (writeOf p (mbxPage secure) 0x058))

/-- Meaning of OUT_DATA_READ (15_mailboxes_smc.md R402). -/
def execOutDataRead (t : Nat) (p : CPacket) (secure : Bool) (s : State) : Host.Outcome State Fault Refusal :=
  ran s (receive s t (readOf p (mbxPage secure) 0x05C))

/-- Meaning of OUT_ACK (15_mailboxes_smc.md R404). -/
def execOutAck (t : Nat) (p : CPacket) (secure : Bool) (s : State) : Host.Outcome State Fault Refusal :=
  ran s (receive s t (actOf p (mbxPage secure) 0x060 [0] [1]))

/-- Meaning of IN_ABORT (15_mailboxes_smc.md R410). -/
def execInAbort (t : Nat) (p : CPacket) (secure : Bool) (s : State) : Host.Outcome State Fault Refusal :=
  ran s (receive s t (actOf p (mbxPage secure) 0x060 [1] [0]))

/-- Meaning of LOCK_READ (15_mailboxes_smc.md R408). -/
def execLockRead (t : Nat) (p : CPacket) (secure : Bool) (s : State) : Host.Outcome State Fault Refusal :=
  ran s (receive s t (readOf p (mbxPage secure) 0x04C))

/-- Meaning of LOCK_WRITE (15_mailboxes_smc.md R408). -/
def execLockWrite (t : Nat) (p : CPacket) (secure : Bool) (s : State) : Host.Outcome State Fault Refusal :=
  ran s (receive s t (writeOf p (mbxPage secure) 0x04C))

/-- Meaning of LOCK_EXPIRED (15_mailboxes_smc.md R409). -/
def execLockExpired (t : Nat) (secure : Bool) (s : State) : Host.Outcome State Fault Refusal :=
  let a := advance s t
  ran s (live a (mbxLockExpire a secure))

/-- Meaning of MBX_CTL_WRITE (15_mailboxes_smc.md R411). -/
def execMbxCtlWrite (t : Nat) (p : CPacket) (secure : Bool) (s : State) : Host.Outcome State Fault Refusal :=
  ran s (receive s t (writeOf p (mbxPage secure) 0x044))

/-- Meaning of SMC_POP_INBOUND (15_mailboxes_smc.md R401). -/
def execSmcPopInbound (t : Nat) (secure : Bool) (s : State) : Host.Outcome State Fault Refusal :=
  let a := advance s t
  ran s (smcOp a (mbxSmcPop a secure))

/-- Meaning of SMC_PUSH_OUTBOUND (15_mailboxes_smc.md R402). -/
def execSmcPushOutbound (t : Nat) (secure : Bool) (words : List Word) (s : State) : Host.Outcome State Fault Refusal :=
  let a := advance s t
  ran s (smcOp a ((mbxOut a secure words).1))

/-- Meaning of SMC_ACK_INBOUND (15_mailboxes_smc.md R404). -/
def execSmcAckInbound (t : Nat) (secure : Bool) (s : State) : Host.Outcome State Fault Refusal :=
  let a := advance s t
  ran s (smcOp a (mbxSmcAck a secure))

/-- Meaning of VERSION (15_mailboxes_smc.md R418). -/
def execVersion (t : Nat) (secure : Bool) (s : State) : Host.Outcome State Fault Refusal :=
  let a := advance s t
  ran s (smcOp a (torifVersionOp a secure))

/-- Meaning of PING (15_mailboxes_smc.md R417). -/
def execPing (t : Nat) (secure : Bool) (s : State) : Host.Outcome State Fault Refusal :=
  let a := advance s t
  ran s (smcOp a (torifPingOp a secure))

/-- Meaning of FRAME_COPY (15_mailboxes_smc.md R419). -/
def execFrameCopy (t : Nat) (secure : Bool) (s : State) : Host.Outcome State Fault Refusal :=
  let a := advance s t
  ran s (smcOp a (torifCopyOp a secure))

end Sys2Proof.Machine
end

