-- ==== Sys2Proof/Machine/Messages.lean ====
section
/-!
DEFINITION. Messages on the C-net and the S-net other than requests, and what the slice sends: one meaning for each command.
-/

namespace Sys2Proof.Machine

/-- Meaning of FWD_PACKET_RX (02_fabric_interface.md R58). -/
def execFwdPacketRx (t : Nat) (p : CPacket) (s : State) : Host.Outcome State Fault Refusal :=
  ran s (receive s t (withVc p 1))

/-- Meaning of RSP_COMP_RX (02_fabric_interface.md R63). -/
def execRspCompRx (t : Nat) (p : CPacket) (s : State) : Host.Outcome State Fault Refusal :=
  ran s (receive s t (withVc (withOp p 0x50) 2))

/-- Meaning of DAT_COMP_RX (11_cache.md R304). -/
def execDatCompRx (t : Nat) (p : CPacket) (s : State) : Host.Outcome State Fault Refusal :=
  ran s (receive s t (withVc (withOp p 0x51) 3))

/-- Meaning of RSP_ACK_RX (12_coherence.md R330). -/
def execRspAckRx (t : Nat) (p : CPacket) (s : State) : Host.Outcome State Fault Refusal :=
  ran s (receive s t (withVc (withOp p 0x52) 2))

/-- Meaning of RSP_FWD_DONE_RX (12_coherence.md R332). -/
def execRspFwdDoneRx (t : Nat) (p : CPacket) (s : State) : Host.Outcome State Fault Refusal :=
  ran s (receive s t (withVc (withOp p 0x53) 2))

/-- Meaning of RSP_FWD_MISS_WB_RX (12_coherence.md R336). -/
def execRspFwdMissWbRx (t : Nat) (p : CPacket) (s : State) : Host.Outcome State Fault Refusal :=
  ran s (receive s t (withVc (withOp p 0x54) 2))

/-- Meaning of RSP_INV_ACK_RX (12_coherence.md R332). -/
def execRspInvAckRx (t : Nat) (p : CPacket) (s : State) : Host.Outcome State Fault Refusal :=
  ran s (receive s t (withVc (withOp p 0x55) 2))

/-- Meaning of DAT_SNP_RX (12_coherence.md R332). -/
def execDatSnpRx (t : Nat) (p : CPacket) (s : State) : Host.Outcome State Fault Refusal :=
  ran s (receive s t (withVc (withOp p 0x57) 3))

/-- Meaning of CNET_CREDIT_RX (02_fabric_interface.md R45). -/
def execCnetCreditRx (t : Nat) (vc : Nat) (s : State) : Host.Outcome State Fault Refusal :=
  runOn s "virtual channel" vc 5 (creditIn (advance s t) vc)

/-- Meaning of PACKET_SEND (02_fabric_interface.md R499). -/
def execPacketSend (t : Nat) (s : State) : Host.Outcome State Fault Refusal :=
  ran s (packetSendOp (advance s t))

/-- Meaning of TICK (02_fabric_interface.md R72). -/
def execTick (t : Nat) (frame : BitVec 16) (s : State) : Host.Outcome State Fault Refusal :=
  ran s (snetIn s t 1 frame.toNat)

/-- Meaning of BAR_RELEASE (05_frames_and_fronds.md R179). -/
def execBarRelease (t : Nat) (id : BitVec 12) (s : State) : Host.Outcome State Fault Refusal :=
  ran s (snetIn s t 3 id.toNat)

/-- Meaning of QUENCH (02_fabric_interface.md R73). -/
def execQuench (t : Nat) (s : State) : Host.Outcome State Fault Refusal :=
  ran s (snetIn s t 4 1)

/-- Meaning of QUENCH_RELEASE (02_fabric_interface.md R74). -/
def execQuenchRelease (t : Nat) (s : State) : Host.Outcome State Fault Refusal :=
  ran s (snetIn s t 4 2)

/-- Meaning of WAKE_GNT (16_power_clocks_reset.md R430). -/
def execWakeGnt (t : Nat) (tile : BitVec 8) (count : BitVec 4) (s : State) : Host.Outcome State Fault Refusal :=
  ran s (snetIn s t 6 (tile.toNat + 256 * count.toNat))

/-- Meaning of FAULT_RX (13_errors_poison_scrub.md R372). -/
def execFaultRx (t : Nat) (tile : BitVec 8) (cls : BitVec 4) (s : State) : Host.Outcome State Fault Refusal :=
  ran s (snetIn s t 7 (tile.toNat + 256 * cls.toNat))

/-- Meaning of FAULT_REPEAT (02_fabric_interface.md R77). -/
def execFaultRepeat (t : Nat) (s : State) : Host.Outcome State Fault Refusal :=
  ran s (faultRepeatOp (advance s t))

/-- Meaning of INT_RETRY (02_fabric_interface.md R67). -/
def execIntRetry (t : Nat) (page : Nat) (s : State) : Host.Outcome State Fault Refusal :=
  runOn s "register page" page 18 (intRetryOp (advance s t) page)

/-- Meaning of SNET_MESSAGE_DISCARD (02_fabric_interface.md R69). -/
def execSnetMessageDiscard (t : Nat) (beat0 beat1 : BitVec 16) (s : State) : Host.Outcome State Fault Refusal :=
  ran s (snetPair s t beat0 beat1)

/-- Meaning of SNET_MESSAGE_SEND (02_fabric_interface.md R71). -/
def execSnetMessageSend (t : Nat) (s : State) : Host.Outcome State Fault Refusal :=
  ran s (snetSendOp (advance s t))

end Sys2Proof.Machine
end

