-- ==== Sys2Proof/Machine/Registers.lean ====
section
/-!
DEFINITION. Register accesses that a row of the table names by what they do: one meaning for each command.
-/

namespace Sys2Proof.Machine

/-- Meaning of ERR_MASK_WRITE (00_scope.md R21). -/
def execErrMaskWrite (t : Nat) (p : CPacket) (n : Nat) (s : State) : Host.Outcome State Fault Refusal :=
  runOn s "register page" n 18 (receive s t (writeOf p n 0x014))

/-- Meaning of ABI_SEL_WRITE (00_scope.md R6). -/
def execAbiSelWrite (t : Nat) (p : CPacket) (s : State) : Host.Outcome State Fault Refusal :=
  ran s (receive s t (writeOf p 0x00 0x048))

/-- Meaning of WIDE_LOW_READ (00_scope.md R11). -/
def execWideLowRead (t : Nat) (p : CPacket) (n : Nat) (s : State) : Host.Outcome State Fault Refusal :=
  runOn s "wide register" n 9 (receive s t (readOf p 0x0F (wideLowOfs n)))

/-- Meaning of RGN_COMMIT_ARM (03_addressing_regions.md R101). -/
def execRgnCommitArm (t : Nat) (p : CPacket) (s : State) : Host.Outcome State Fault Refusal :=
  ran s (receive s t (actOf p 0x02 0x040 [0] [1, 2]))

/-- Meaning of RGN_COMMIT_NOW (03_addressing_regions.md R103). -/
def execRgnCommitNow (t : Nat) (p : CPacket) (s : State) : Host.Outcome State Fault Refusal :=
  ran s (receive s t (actOf p 0x02 0x040 [1] [0, 2]))

/-- Meaning of RGN_COMMIT_CANCEL (03_addressing_regions.md R104). -/
def execRgnCommitCancel (t : Nat) (p : CPacket) (s : State) : Host.Outcome State Fault Refusal :=
  ran s (receive s t (actOf p 0x02 0x040 [2] []))

/-- Meaning of RGN_SHADOW_WRITE (03_addressing_regions.md R100). -/
def execRgnShadowWrite (t : Nat) (p : CPacket) (n : Nat) (s : State) : Host.Outcome State Fault Refusal :=
  runOn s "shadow region word" n 128 (receive s t (writeOf p 0x02 (0x100 + 4 * n)))

/-- Meaning of TIER_FAIL_WRITE (04_thallus.md R133). -/
def execTierFailWrite (t : Nat) (p : CPacket) (s : State) : Host.Outcome State Fault Refusal :=
  ran s (receive s t (writeOf p 0x03 0x048))

/-- Meaning of LOAD_OPEN (05_frames_and_fronds.md R167). -/
def execLoadOpen (t : Nat) (p : CPacket) (s : State) : Host.Outcome State Fault Refusal :=
  ran s (receive s t (actOf p 0x01 0x058 [0] [1, 2]))

/-- Meaning of LOAD_VALIDATE (05_frames_and_fronds.md R167). -/
def execLoadValidate (t : Nat) (p : CPacket) (s : State) : Host.Outcome State Fault Refusal :=
  ran s (receive s t (actOf p 0x01 0x058 [1] [0, 2]))

/-- Meaning of LOAD_ABORT (05_frames_and_fronds.md R167). -/
def execLoadAbort (t : Nat) (p : CPacket) (s : State) : Host.Outcome State Fault Refusal :=
  ran s (receive s t (actOf p 0x01 0x058 [2] []))

/-- Meaning of LOAD_DATA_WRITE (05_frames_and_fronds.md R167). -/
def execLoadDataWrite (t : Nat) (p : CPacket) (s : State) : Host.Outcome State Fault Refusal :=
  ran s (receive s t (writeOf p 0x01 0x060))

/-- Meaning of LOAD_DATA_READ (05_frames_and_fronds.md R168). -/
def execLoadDataRead (t : Nat) (p : CPacket) (s : State) : Host.Outcome State Fault Refusal :=
  ran s (receive s t (readOf p 0x01 0x060))

/-- Meaning of TICK_PERIOD_WRITE (05_frames_and_fronds.md R181). -/
def execTickPeriodWrite (t : Nat) (p : CPacket) (s : State) : Host.Outcome State Fault Refusal :=
  ran s (receive s t (writeOf p 0x01 0x048))

/-- Meaning of UNSCHED_MIN_WRITE (05_frames_and_fronds.md R181). -/
def execUnschedMinWrite (t : Nat) (p : CPacket) (s : State) : Host.Outcome State Fault Refusal :=
  ran s (receive s t (writeOf p 0x01 0x050))

/-- Meaning of ENERGY_CAP_WRITE (05_frames_and_fronds.md R181). -/
def execEnergyCapWrite (t : Nat) (p : CPacket) (s : State) : Host.Outcome State Fault Refusal :=
  ran s (receive s t (writeOf p 0x01 0x054))

/-- Meaning of REFRESH_RESERVE_WRITE (05_frames_and_fronds.md R182). -/
def execRefreshReserveWrite (t : Nat) (p : CPacket) (s : State) : Host.Outcome State Fault Refusal :=
  ran s (receive s t (writeOf p 0x01 0x04C))

/-- Meaning of ACC_CTL_WRITE (08_accumulation.md R252). -/
def execAccCtlWrite (t : Nat) (p : CPacket) (s : State) : Host.Outcome State Fault Refusal :=
  ran s (receive s t (writeOf p 0x07 0x040))

/-- Meaning of ACC_CNT_CLR (08_accumulation.md R252). -/
def execAccCntClr (t : Nat) (p : CPacket) (s : State) : Host.Outcome State Fault Refusal :=
  ran s (receive s t (actOf p 0x07 0x040 [2] []))

/-- Meaning of ACC_DBG_READ (08_accumulation.md R251). -/
def execAccDbgRead (t : Nat) (p : CPacket) (s : State) : Host.Outcome State Fault Refusal :=
  ran s (receive s t (readOf p 0x07 0x074))

/-- Meaning of DEC_CTL_WRITE (07_weight_decode.md R218). -/
def execDecCtlWrite (t : Nat) (p : CPacket) (s : State) : Host.Outcome State Fault Refusal :=
  ran s (receive s t (writeOf p 0x08 0x040))

/-- Meaning of DEC_CNT_CLR (07_weight_decode.md R222). -/
def execDecCntClr (t : Nat) (p : CPacket) (s : State) : Host.Outcome State Fault Refusal :=
  ran s (receive s t (actOf p 0x08 0x040 [2] []))

/-- Meaning of ARB_COMMIT (17_arbiter_unscheduled.md R460). -/
def execArbCommit (t : Nat) (p : CPacket) (s : State) : Host.Outcome State Fault Refusal :=
  ran s (receive s t (actOf p 0x0E 0x048 [0] []))

/-- Meaning of ARB_CNT_CLR (17_arbiter_unscheduled.md R463). -/
def execArbCntClr (t : Nat) (p : CPacket) (s : State) : Host.Outcome State Fault Refusal :=
  ran s (receive s t (actOf p 0x0E 0x040 [0] []))

/-- Meaning of WDOG_KICK (13_errors_poison_scrub.md R365). -/
def execWdogKick (t : Nat) (p : CPacket) (s : State) : Host.Outcome State Fault Refusal :=
  ran s (receive s t (actOf p 0x09 0x070 [1] []))

/-- Meaning of FS_FORCE (13_errors_poison_scrub.md R371). -/
def execFsForce (t : Nat) (p : CPacket) (s : State) : Host.Outcome State Fault Refusal :=
  ran s (receive s t (actOf p 0x09 0x050 [0] []))

/-- Meaning of RAS_CNT_CLR (13_errors_poison_scrub.md R374). -/
def execRasCntClr (t : Nat) (p : CPacket) (s : State) : Host.Outcome State Fault Refusal :=
  ran s (receive s t (actOf p 0x09 0x040 [0] []))

/-- Meaning of BKT_CLR (13_errors_poison_scrub.md R374). -/
def execBktClr (t : Nat) (p : CPacket) (s : State) : Host.Outcome State Fault Refusal :=
  ran s (receive s t (actOf p 0x09 0x040 [1] []))

/-- Meaning of SCRUB_RESTART (13_errors_poison_scrub.md R359). -/
def execScrubRestart (t : Nat) (p : CPacket) (s : State) : Host.Outcome State Fault Refusal :=
  ran s (receive s t (actOf p 0x09 0x074 [1] []))

/-- Meaning of DOM_CFG_WRITE (13_errors_poison_scrub.md R356). -/
def execDomCfgWrite (t : Nat) (p : CPacket) (n : Nat) (s : State) : Host.Outcome State Fault Refusal :=
  runOn s "RAS domain" n (nDomains s.straps.build) (receive s t (writeOf p 0x09 (0x100 + 8 * n)))

/-- Meaning of INJ_ARM (13_errors_poison_scrub.md R373). -/
def execInjArm (t : Nat) (p : CPacket) (s : State) : Host.Outcome State Fault Refusal :=
  ran s (receive s t (actOf p 0x09 0x08C [7] []))

/-- Meaning of MAP_COMMIT_ARM (10_update_engines.md R272). -/
def execMapCommitArm (t : Nat) (p : CPacket) (s : State) : Host.Outcome State Fault Refusal :=
  ran s (receive s t (actOf p 0x06 0x04C [0] [1, 2]))

/-- Meaning of MAP_COMMIT_NOW (10_update_engines.md R273). -/
def execMapCommitNow (t : Nat) (p : CPacket) (s : State) : Host.Outcome State Fault Refusal :=
  ran s (receive s t (actOf p 0x06 0x04C [1] [0, 2]))

/-- Meaning of MAP_COMMIT_CANCEL (10_update_engines.md R272). -/
def execMapCommitCancel (t : Nat) (p : CPacket) (s : State) : Host.Outcome State Fault Refusal :=
  ran s (receive s t (actOf p 0x06 0x04C [2] []))

/-- Meaning of OPT_SLOT_WRITE (10_update_engines.md R288). -/
def execOptSlotWrite (t : Nat) (p : CPacket) (n : Nat) (s : State) : Host.Outcome State Fault Refusal :=
  runOn s "step slot word" n 144 (receive s t (writeOf p 0x06 (slotWordOfs n)))

/-- Meaning of UPD_CNT_CLR (10_update_engines.md R294). -/
def execUpdCntClr (t : Nat) (p : CPacket) (s : State) : Host.Outcome State Fault Refusal :=
  ran s (receive s t (actOf p 0x06 0x040 [1] []))

/-- Meaning of HOST_AGENT_WRITE (11_cache.md R318). -/
def execHostAgentWrite (t : Nat) (p : CPacket) (s : State) : Host.Outcome State Fault Refusal :=
  ran s (receive s t (writeOf p 0x04 0x05C))

/-- Meaning of CCH_CNT_CLR (11_cache.md R318). -/
def execCchCntClr (t : Nat) (p : CPacket) (s : State) : Host.Outcome State Fault Refusal :=
  ran s (receive s t (actOf p 0x04 0x040 [0] []))

/-- Meaning of CCH_DBG_READ (11_cache.md R318). -/
def execCchDbgRead (t : Nat) (p : CPacket) (s : State) : Host.Outcome State Fault Refusal :=
  ran s (receive s t (readOf p 0x04 0x08C))

/-- Meaning of DIR_WAY_RETIRE (12_coherence.md R344). -/
def execDirWayRetire (t : Nat) (p : CPacket) (s : State) : Host.Outcome State Fault Refusal :=
  ran s (receive s t (writeOf p 0x05 0x054))

/-- Meaning of DIR_CNT_CLR (12_coherence.md R345). -/
def execDirCntClr (t : Nat) (p : CPacket) (s : State) : Host.Outcome State Fault Refusal :=
  ran s (receive s t (actOf p 0x05 0x040 [0] []))

/-- Meaning of DIR_DBG_READ (12_coherence.md R345). -/
def execDirDbgRead (t : Nat) (p : CPacket) (s : State) : Host.Outcome State Fault Refusal :=
  ran s (receive s t (readOf p 0x05 0x078))

/-- Meaning of SPR_COMMIT_ARM (14_sparing_rebuild.md R378). -/
def execSprCommitArm (t : Nat) (p : CPacket) (s : State) : Host.Outcome State Fault Refusal :=
  ran s (receive s t (actOf p 0x0A 0x044 [0] [1, 2]))

/-- Meaning of SPR_COMMIT_NOW (14_sparing_rebuild.md R380). -/
def execSprCommitNow (t : Nat) (p : CPacket) (s : State) : Host.Outcome State Fault Refusal :=
  ran s (receive s t (actOf p 0x0A 0x044 [1] [0, 2]))

/-- Meaning of SPR_COMMIT_CANCEL (14_sparing_rebuild.md R380). -/
def execSprCommitCancel (t : Nat) (p : CPacket) (s : State) : Host.Outcome State Fault Refusal :=
  ran s (receive s t (actOf p 0x0A 0x044 [2] []))

/-- Meaning of SPR_SHADOW_WRITE (14_sparing_rebuild.md R378). -/
def execSprShadowWrite (t : Nat) (p : CPacket) (n : Nat) (s : State) : Host.Outcome State Fault Refusal :=
  runOn s "shadow sparing word" n 73 (receive s t (writeOf p 0x0A (sprWordOfs n)))

/-- Meaning of REBUILD_START (14_sparing_rebuild.md R386). -/
def execRebuildStart (t : Nat) (p : CPacket) (s : State) : Host.Outcome State Fault Refusal :=
  ran s (receive s t (actOf p 0x0A 0x054 [0] [1, 2, 3]))

/-- Meaning of REBUILD_PAUSE (14_sparing_rebuild.md R389). -/
def execRebuildPause (t : Nat) (p : CPacket) (s : State) : Host.Outcome State Fault Refusal :=
  ran s (receive s t (actOf p 0x0A 0x054 [1] [0, 2, 3]))

/-- Meaning of REBUILD_RESUME (14_sparing_rebuild.md R389). -/
def execRebuildResume (t : Nat) (p : CPacket) (s : State) : Host.Outcome State Fault Refusal :=
  ran s (receive s t (actOf p 0x0A 0x054 [2] [0, 1, 3]))

/-- Meaning of REBUILD_ABORT (14_sparing_rebuild.md R389). -/
def execRebuildAbort (t : Nat) (p : CPacket) (s : State) : Host.Outcome State Fault Refusal :=
  ran s (receive s t (actOf p 0x0A 0x054 [3] []))

/-- Meaning of ENG_DOMAIN_OFF (16_power_clocks_reset.md R433). -/
def execEngDomainOff (t : Nat) (p : CPacket) (s : State) : Host.Outcome State Fault Refusal :=
  ran s (receive s t (actOf p 0x0B 0x040 [] [0]))

/-- Meaning of ENG_DOMAIN_ON (16_power_clocks_reset.md R433). -/
def execEngDomainOn (t : Nat) (p : CPacket) (s : State) : Host.Outcome State Fault Refusal :=
  ran s (receive s t (actOf p 0x0B 0x040 [0] []))

/-- Meaning of SMC_DOMAIN_OFF (16_power_clocks_reset.md R434). -/
def execSmcDomainOff (t : Nat) (p : CPacket) (s : State) : Host.Outcome State Fault Refusal :=
  ran s (receive s t (actOf p 0x0B 0x040 [] [1]))

/-- Meaning of SMC_DOMAIN_ON (16_power_clocks_reset.md R434). -/
def execSmcDomainOn (t : Nat) (p : CPacket) (s : State) : Host.Outcome State Fault Refusal :=
  ran s (receive s t (actOf p 0x0B 0x040 [1] []))

/-- Meaning of TIER_WAKE_CMD (16_power_clocks_reset.md R451). -/
def execTierWakeCmd (t : Nat) (p : CPacket) (s : State) : Host.Outcome State Fault Refusal :=
  ran s (receive s t (actOf p 0x0B 0x048 [12] [13]))

/-- Meaning of TIER_SLEEP_CMD (16_power_clocks_reset.md R451). -/
def execTierSleepCmd (t : Nat) (p : CPacket) (s : State) : Host.Outcome State Fault Refusal :=
  ran s (receive s t (actOf p 0x0B 0x048 [13] [12]))

/-- Meaning of TIER_OFF_CMD (16_power_clocks_reset.md R451). -/
def execTierOffCmd (t : Nat) (p : CPacket) (s : State) : Host.Outcome State Fault Refusal :=
  ran s (receive s t (actOf p 0x0B 0x048 [12, 13] []))

/-- Meaning of RETAIN_ENTER (16_power_clocks_reset.md R436). -/
def execRetainEnter (t : Nat) (p : CPacket) (s : State) : Host.Outcome State Fault Refusal :=
  ran s (receive s t (actOf p 0x0B 0x068 [0] [1]))

/-- Meaning of RETAIN_EXIT (16_power_clocks_reset.md R437). -/
def execRetainExit (t : Nat) (p : CPacket) (s : State) : Host.Outcome State Fault Refusal :=
  ran s (receive s t (actOf p 0x0B 0x068 [1] [0]))

/-- Meaning of RST_CTL_COLD (16_power_clocks_reset.md R441). -/
def execRstCtlCold (t : Nat) (p : CPacket) (s : State) : Host.Outcome State Fault Refusal :=
  ran s (receive s t (actOf p 0x00 0x04C [0] []))

/-- Meaning of RST_CTL_WARM (16_power_clocks_reset.md R441). -/
def execRstCtlWarm (t : Nat) (p : CPacket) (s : State) : Host.Outcome State Fault Refusal :=
  ran s (receive s t (actOf p 0x00 0x04C [1] [0]))

/-- Meaning of RST_CTL_FRAME (16_power_clocks_reset.md R444). -/
def execRstCtlFrame (t : Nat) (p : CPacket) (s : State) : Host.Outcome State Fault Refusal :=
  ran s (receive s t (actOf p 0x00 0x04C [2] [0, 1]))

/-- Meaning of RST_CTL_SMC (16_power_clocks_reset.md R445). -/
def execRstCtlSmc (t : Nat) (p : CPacket) (s : State) : Host.Outcome State Fault Refusal :=
  ran s (receive s t (actOf p 0x00 0x04C [3] [0, 1, 2]))

/-- Meaning of PMU_CNT_CLR (18_pmu_debug_events.md R469). -/
def execPmuCntClr (t : Nat) (p : CPacket) (s : State) : Host.Outcome State Fault Refusal :=
  ran s (receive s t (actOf p 0x0F 0x040 [1] []))

/-- Meaning of PMU_CNT_WRITE (18_pmu_debug_events.md R469). -/
def execPmuCntWrite (t : Nat) (p : CPacket) (n : Nat) (s : State) : Host.Outcome State Fault Refusal :=
  runOn s "counter word" n 16 (receive s t (writeOf p 0x0F (cntWordOfs n)))

/-- Meaning of PMU_CFG_WRITE (18_pmu_debug_events.md R469). -/
def execPmuCfgWrite (t : Nat) (p : CPacket) (n : Nat) (s : State) : Host.Outcome State Fault Refusal :=
  runOn s "counter" n 8 (receive s t (writeOf p 0x0F (0x080 + 0x10 * n)))

/-- Meaning of DBG_MODE_WRITE (18_pmu_debug_events.md R474). -/
def execDbgModeWrite (t : Nat) (p : CPacket) (s : State) : Host.Outcome State Fault Refusal :=
  ran s (receive s t (actOf p 0x10 0x040 [] [1, 2, 3]))

/-- Meaning of DBG_HALT (18_pmu_debug_events.md R475). -/
def execDbgHalt (t : Nat) (p : CPacket) (s : State) : Host.Outcome State Fault Refusal :=
  ran s (receive s t (actOf p 0x10 0x040 [1] [2, 3]))

/-- Meaning of DBG_RESUME (18_pmu_debug_events.md R475). -/
def execDbgResume (t : Nat) (p : CPacket) (s : State) : Host.Outcome State Fault Refusal :=
  ran s (receive s t (actOf p 0x10 0x040 [2] [1, 3]))

/-- Meaning of DBG_STEP (18_pmu_debug_events.md R475). -/
def execDbgStep (t : Nat) (p : CPacket) (s : State) : Host.Outcome State Fault Refusal :=
  ran s (receive s t (actOf p 0x10 0x040 [3] [1, 2]))

/-- Meaning of TRC_CLR (18_pmu_debug_events.md R480). -/
def execTrcClr (t : Nat) (p : CPacket) (s : State) : Host.Outcome State Fault Refusal :=
  ran s (receive s t (actOf p 0x10 0x04C [2] []))

/-- Meaning of TRC_DATA0_READ (18_pmu_debug_events.md R481). -/
def execTrcData0Read (t : Nat) (p : CPacket) (s : State) : Host.Outcome State Fault Refusal :=
  ran s (receive s t (readOf p 0x10 0x060))

/-- Meaning of TRC_DATA3_READ (18_pmu_debug_events.md R481). -/
def execTrcData3Read (t : Nat) (p : CPacket) (s : State) : Host.Outcome State Fault Refusal :=
  ran s (receive s t (readOf p 0x10 0x06C))

/-- Meaning of EVT_SEL_WRITE (18_pmu_debug_events.md R487). -/
def execEvtSelWrite (t : Nat) (p : CPacket) (n : Nat) (s : State) : Host.Outcome State Fault Refusal :=
  runOn s "event line" n 16 (receive s t (writeOf p 0x11 (0x050 + 4 * n)))

end Sys2Proof.Machine
end

