-- ==== Sys2Proof/Machine/Requests.lean ====
section
/-!
DEFINITION. Requests that reach the C-net input: one meaning for each command.
-/

namespace Sys2Proof.Machine

/-- Meaning of NOP (03_addressing_regions.md R88). -/
def execNop (t : Nat) (p : CPacket) (s : State) : Host.Outcome State Fault Refusal :=
  ran s (receive s t (nopOf p))

/-- Meaning of RD (12_coherence.md R332). -/
def execRd (t : Nat) (p : CPacket) (s : State) : Host.Outcome State Fault Refusal :=
  ran s (receive s t (withOp p 0x01))

/-- Meaning of RD_SHARED (12_coherence.md R332). -/
def execRdShared (t : Nat) (p : CPacket) (s : State) : Host.Outcome State Fault Refusal :=
  ran s (receive s t (withOp p 0x02))

/-- Meaning of RD_UNIQUE (12_coherence.md R332). -/
def execRdUnique (t : Nat) (p : CPacket) (s : State) : Host.Outcome State Fault Refusal :=
  ran s (receive s t (withOp p 0x03))

/-- Meaning of RD_NOALLOC (12_coherence.md R332). -/
def execRdNoalloc (t : Nat) (p : CPacket) (s : State) : Host.Outcome State Fault Refusal :=
  ran s (receive s t (withOp p 0x04))

/-- Meaning of WR (12_coherence.md R332). -/
def execWr (t : Nat) (p : CPacket) (s : State) : Host.Outcome State Fault Refusal :=
  ran s (receive s t (withOp p 0x05))

/-- Meaning of WR_LINE (12_coherence.md R332). -/
def execWrLine (t : Nat) (p : CPacket) (s : State) : Host.Outcome State Fault Refusal :=
  ran s (receive s t (withOp p 0x06))

/-- Meaning of WB_DIRTY (12_coherence.md R335). -/
def execWbDirty (t : Nat) (p : CPacket) (s : State) : Host.Outcome State Fault Refusal :=
  ran s (receive s t (withOp p 0x07))

/-- Meaning of WB_CLEAN (12_coherence.md R335). -/
def execWbClean (t : Nat) (p : CPacket) (s : State) : Host.Outcome State Fault Refusal :=
  ran s (receive s t (withOp p 0x08))

/-- Meaning of AT_SWAP (10_update_engines.md R278). -/
def execAtSwap (t : Nat) (p : CPacket) (s : State) : Host.Outcome State Fault Refusal :=
  ran s (receive s t (withOp p 0x10))

/-- Meaning of AT_CAS (10_update_engines.md R278). -/
def execAtCas (t : Nat) (p : CPacket) (s : State) : Host.Outcome State Fault Refusal :=
  ran s (receive s t (withOp p 0x11))

/-- Meaning of AT_ADD_I (10_update_engines.md R278). -/
def execAtAddI (t : Nat) (p : CPacket) (s : State) : Host.Outcome State Fault Refusal :=
  ran s (receive s t (withOp p 0x12))

/-- Meaning of AT_ADD_F32 (10_update_engines.md R279). -/
def execAtAddF32 (t : Nat) (p : CPacket) (s : State) : Host.Outcome State Fault Refusal :=
  ran s (receive s t (withOp p 0x13))

/-- Meaning of AT_ADD_BF16X2 (10_update_engines.md R279). -/
def execAtAddBf16x2 (t : Nat) (p : CPacket) (s : State) : Host.Outcome State Fault Refusal :=
  ran s (receive s t (withOp p 0x14))

/-- Meaning of AT_MIN_I (10_update_engines.md R278). -/
def execAtMinI (t : Nat) (p : CPacket) (s : State) : Host.Outcome State Fault Refusal :=
  ran s (receive s t (withOp p 0x15))

/-- Meaning of AT_MAX_I (10_update_engines.md R278). -/
def execAtMaxI (t : Nat) (p : CPacket) (s : State) : Host.Outcome State Fault Refusal :=
  ran s (receive s t (withOp p 0x16))

/-- Meaning of AT_MIN_F (10_update_engines.md R279). -/
def execAtMinF (t : Nat) (p : CPacket) (s : State) : Host.Outcome State Fault Refusal :=
  ran s (receive s t (withOp p 0x17))

/-- Meaning of AT_MAX_F (10_update_engines.md R279). -/
def execAtMaxF (t : Nat) (p : CPacket) (s : State) : Host.Outcome State Fault Refusal :=
  ran s (receive s t (withOp p 0x18))

/-- Meaning of AT_AND (10_update_engines.md R278). -/
def execAtAnd (t : Nat) (p : CPacket) (s : State) : Host.Outcome State Fault Refusal :=
  ran s (receive s t (withOp p 0x19))

/-- Meaning of AT_OR (10_update_engines.md R278). -/
def execAtOr (t : Nat) (p : CPacket) (s : State) : Host.Outcome State Fault Refusal :=
  ran s (receive s t (withOp p 0x1A))

/-- Meaning of AT_XOR (10_update_engines.md R278). -/
def execAtXor (t : Nat) (p : CPacket) (s : State) : Host.Outcome State Fault Refusal :=
  ran s (receive s t (withOp p 0x1B))

/-- Meaning of AT_INC_BOUND (10_update_engines.md R278). -/
def execAtIncBound (t : Nat) (p : CPacket) (s : State) : Host.Outcome State Fault Refusal :=
  ran s (receive s t (withOp p 0x1C))

/-- Meaning of AT_VADD_F32 (10_update_engines.md R279). -/
def execAtVaddF32 (t : Nat) (p : CPacket) (s : State) : Host.Outcome State Fault Refusal :=
  ran s (receive s t (withOp p 0x1D))

/-- Meaning of AT_VACC (08_accumulation.md R246). -/
def execAtVacc (t : Nat) (p : CPacket) (s : State) : Host.Outcome State Fault Refusal :=
  ran s (receive s t (withOp p 0x1E))

/-- Meaning of MT_CLEAN_PA (11_cache.md R310). -/
def execMtCleanPa (t : Nat) (p : CPacket) (s : State) : Host.Outcome State Fault Refusal :=
  ran s (receive s t (withOp p 0x20))

/-- Meaning of MT_INV_PA (11_cache.md R310). -/
def execMtInvPa (t : Nat) (p : CPacket) (s : State) : Host.Outcome State Fault Refusal :=
  ran s (receive s t (withOp p 0x21))

/-- Meaning of MT_CLINV_PA (11_cache.md R310). -/
def execMtClinvPa (t : Nat) (p : CPacket) (s : State) : Host.Outcome State Fault Refusal :=
  ran s (receive s t (withOp p 0x22))

/-- Meaning of MT_ZERO_PA (11_cache.md R311). -/
def execMtZeroPa (t : Nat) (p : CPacket) (s : State) : Host.Outcome State Fault Refusal :=
  ran s (receive s t (withOp p 0x26))

/-- Meaning of MT_CLEAN_SW (11_cache.md R312). -/
def execMtCleanSw (t : Nat) (p : CPacket) (s : State) : Host.Outcome State Fault Refusal :=
  ran s (receive s t (withOp p 0x23))

/-- Meaning of MT_INV_SW (11_cache.md R312). -/
def execMtInvSw (t : Nat) (p : CPacket) (s : State) : Host.Outcome State Fault Refusal :=
  ran s (receive s t (withOp p 0x24))

/-- Meaning of MT_CLINV_SW (11_cache.md R312). -/
def execMtClinvSw (t : Nat) (p : CPacket) (s : State) : Host.Outcome State Fault Refusal :=
  ran s (receive s t (withOp p 0x25))

/-- Meaning of ST_PULL (06_streams.md R196). -/
def execStPull (t : Nat) (p : CPacket) (s : State) : Host.Outcome State Fault Refusal :=
  ran s (receive s t (withBits (withOp p 0x28) [] [56]))

/-- Meaning of ST_PULL_ABORT (06_streams.md R199). -/
def execStPullAbort (t : Nat) (p : CPacket) (s : State) : Host.Outcome State Fault Refusal :=
  ran s (receive s t (withBits (withOp p 0x28) [56] []))

/-- Meaning of ST_PUSH (06_streams.md R201). -/
def execStPush (t : Nat) (p : CPacket) (s : State) : Host.Outcome State Fault Refusal :=
  ran s (receive s t (withOp p 0x29))

/-- Meaning of REG_RD (00_scope.md R9). -/
def execRegRd (t : Nat) (p : CPacket) (s : State) : Host.Outcome State Fault Refusal :=
  ran s (receive s t (withOp p 0x30))

/-- Meaning of REG_WR (00_scope.md R12). -/
def execRegWr (t : Nat) (p : CPacket) (s : State) : Host.Outcome State Fault Refusal :=
  ran s (receive s t (withOp p 0x31))

/-- Meaning of INT_RECEIVED (02_fabric_interface.md R56). -/
def execIntReceived (t : Nat) (p : CPacket) (s : State) : Host.Outcome State Fault Refusal :=
  ran s (receive s t (withOp p 0x38))

/-- Meaning of EVT_RECEIVED (02_fabric_interface.md R56). -/
def execEvtReceived (t : Nat) (p : CPacket) (s : State) : Host.Outcome State Fault Refusal :=
  ran s (receive s t (withOp p 0x39))

/-- Meaning of FUSED_OFF_REQUEST (00_scope.md R17). -/
def execFusedOffRequest (t : Nat) (p : CPacket) (s : State) : Host.Outcome State Fault Refusal :=
  ran s (fusedOp (advance s t) p)

/-- Meaning of SHELL_REQUEST (16_power_clocks_reset.md R423). -/
def execShellRequest (t : Nat) (p : CPacket) (s : State) : Host.Outcome State Fault Refusal :=
  ran s (shellOp (advance s t) p)

end Sys2Proof.Machine
end

