-- ==== Sys2Proof/Machine/Upkeep.lean ====
section
/-!
DEFINITION. Events inside LOGIC: the thallus, the arbiter, the home, the cache, the engines, RAS and the counters: one meaning for each command.
-/

namespace Sys2Proof.Machine

/-- Meaning of RGN_COMMIT_CHECK_END (03_addressing_regions.md R102). -/
def execRgnCommitCheckEnd (t : Nat) (s : State) : Host.Outcome State Fault Refusal :=
  let a := advance s t
  ran s (live a (rgnCheckEnd a))

/-- Meaning of THL_READ_COMPLETE (04_thallus.md R126). -/
def execThlReadComplete (t : Nat) (s : State) : Host.Outcome State Fault Refusal :=
  let a := advance s t
  ran s (live a (deliverAll a))

/-- Meaning of REFRESH_ROUND (04_thallus.md R129). -/
def execRefreshRound (t : Nat) (s : State) : Host.Outcome State Fault Refusal :=
  ran s (refreshRoundOp (advance s t))

/-- Meaning of REF_LAG (04_thallus.md R131). -/
def execRefLag (t : Nat) (s : State) : Host.Outcome State Fault Refusal :=
  ran s (refLagOp (advance s t))

/-- Meaning of REF_MISS (04_thallus.md R131). -/
def execRefMiss (t : Nat) (s : State) : Host.Outcome State Fault Refusal :=
  ran s (refMissOp (advance s t))

/-- Meaning of GUARD_PRECHARGE (04_thallus.md R118). -/
def execGuardPrecharge (t : Nat) (s : State) : Host.Outcome State Fault Refusal :=
  let a := advance s t
  ran s (live a (guardOp a))

/-- Meaning of TEMP_UPDATE (04_thallus.md R143). -/
def execTempUpdate (t : Nat) (deg : BitVec 8) (s : State) : Host.Outcome State Fault Refusal :=
  let a := advance s t
  ran s (if logicRuns a then tempOp a deg.toNat else a)

/-- Meaning of THL_INIT_START (04_thallus.md R500). -/
def execThlInitStart (t : Nat) (s : State) : Host.Outcome State Fault Refusal :=
  let a := advance s t
  ran s (live a (thlInitStartOp a))

/-- Meaning of THL_INIT_END (04_thallus.md R500). -/
def execThlInitEnd (t : Nat) (s : State) : Host.Outcome State Fault Refusal :=
  let a := advance s t
  ran s (live a (thlInitEndOp a))

/-- Meaning of VACC_GRANT (08_accumulation.md R247). -/
def execVaccGrant (t : Nat) (s : State) : Host.Outcome State Fault Refusal :=
  let a := advance s t
  ran s (live a (vaccGrantOp a))

/-- Meaning of ACC_INIT_DONE (08_accumulation.md R250). -/
def execAccInitDone (t : Nat) (s : State) : Host.Outcome State Fault Refusal :=
  let a := advance s t
  ran s (live a (accInitOp a))

/-- Meaning of PULL_PACKET_SEND (06_streams.md R197). -/
def execPullPacketSend (t : Nat) (ctx : Nat) (s : State) : Host.Outcome State Fault Refusal :=
  let a := advance s t
  runOn s "pull context" ctx 8 (live a (pullUnit a ctx))

/-- Meaning of ARB_DECISION (17_arbiter_unscheduled.md R456). -/
def execArbDecision (t : Nat) (s : State) : Host.Outcome State Fault Refusal :=
  let a := advance s t
  ran s (live a (decide_ a))

/-- Meaning of GRANT_TMO (17_arbiter_unscheduled.md R459). -/
def execGrantTmo (t : Nat) (req : Nat) (s : State) : Host.Outcome State Fault Refusal :=
  let a := advance s t
  runOn s "requester" req 10 (live a (grantTmoOp a req))

/-- Meaning of SCRUB_READ (13_errors_poison_scrub.md R358). -/
def execScrubRead (t : Nat) (s : State) : Host.Outcome State Fault Refusal :=
  let a := advance s t
  ran s (live a (scrubOp a))

/-- Meaning of PATROL_READ (13_errors_poison_scrub.md R360). -/
def execPatrolRead (t : Nat) (s : State) : Host.Outcome State Fault Refusal :=
  let a := advance s t
  ran s (live a (patrolOp a))

/-- Meaning of LEAK_TICK (13_errors_poison_scrub.md R356). -/
def execLeakTick (t : Nat) (dom : Nat) (s : State) : Host.Outcome State Fault Refusal :=
  let a := advance s t
  runOn s "RAS domain" dom (nDomains s.straps.build) (live a (applyLeaks a dom))

/-- Meaning of WAIT_TMO (13_errors_poison_scrub.md R364). -/
def execWaitTmo (t : Nat) (slot : Nat) (s : State) : Host.Outcome State Fault Refusal :=
  let a := advance s t
  runOn s "request table entry" slot 64 (live a (waitTmoOp a slot))

/-- Meaning of WDOG_EXP (13_errors_poison_scrub.md R365). -/
def execWdogExp (t : Nat) (s : State) : Host.Outcome State Fault Refusal :=
  let a := advance s t
  ran s (live a (wdogOp a))

/-- Meaning of STALL (13_errors_poison_scrub.md R368). -/
def execStall (t : Nat) (slot : Nat) (s : State) : Host.Outcome State Fault Refusal :=
  let a := advance s t
  runOn s "request table entry" slot 64 (live a (stallOp a slot))

/-- Meaning of ATOMIC_EXEC (10_update_engines.md R283). -/
def execAtomicExec (t : Nat) (pos : Nat) (s : State) : Host.Outcome State Fault Refusal :=
  let a := advance s t
  runOn s "engine position" pos (nBanks s.straps.build) (live a (atomicExecOp a pos))

/-- Meaning of BUCKET_STEAL (10_update_engines.md R284). -/
def execBucketSteal (t : Nat) (pos : Nat) (s : State) : Host.Outcome State Fault Refusal :=
  let a := advance s t
  runOn s "engine position" pos (nBanks s.straps.build) (live a (steal a pos))

/-- Meaning of ALLOC_WAIT_RETRY (11_cache.md R303). -/
def execAllocWaitRetry (t : Nat) (slot : Nat) (s : State) : Host.Outcome State Fault Refusal :=
  let a := advance s t
  runOn s "request table entry" slot 64 (live a (retryWait a slot))

/-- Meaning of FILL_TMO (11_cache.md R305). -/
def execFillTmo (t : Nat) (set way : Nat) (s : State) : Host.Outcome State Fault Refusal :=
  let a := advance s t
  runOnTwo s "cache set" set 512 "cache way" way 12 (live a (fillTmoOp a set way))

/-- Meaning of WB_STALL (11_cache.md R306). -/
def execWbStall (t : Nat) (buf : Nat) (s : State) : Host.Outcome State Fault Refusal :=
  let a := advance s t
  runOn s "writeback buffer line" buf 72 (live a (wbStallOp a buf))

/-- Meaning of CACHE_INIT_DONE (11_cache.md R316). -/
def execCacheInitDone (t : Nat) (s : State) : Host.Outcome State Fault Refusal :=
  let a := advance s t
  ran s (live a (cchInitOp a))

/-- Meaning of BLOCKED_START (12_coherence.md R331). -/
def execBlockedStart (t : Nat) (slot : Nat) (s : State) : Host.Outcome State Fault Refusal :=
  let a := advance s t
  runOn s "request table entry" slot 64 (live a (startBlocked a slot))

/-- Meaning of BLOCK_TMO (12_coherence.md R331). -/
def execBlockTmo (t : Nat) (slot : Nat) (s : State) : Host.Outcome State Fault Refusal :=
  let a := advance s t
  runOn s "request table entry" slot 64 (live a (blockTmoOp a slot))

/-- Meaning of FWD_TMO (12_coherence.md R340). -/
def execFwdTmo (t : Nat) (slot : Nat) (s : State) : Host.Outcome State Fault Refusal :=
  let a := advance s t
  runOn s "transaction" slot 640 (live a (txnTimeouts a slot))

/-- Meaning of DIR_INIT_DONE (12_coherence.md R342). -/
def execDirInitDone (t : Nat) (s : State) : Host.Outcome State Fault Refusal :=
  let a := advance s t
  ran s (live a (dirInitOp a))

/-- Meaning of DIR_SWEEP_END (12_coherence.md R344). -/
def execDirSweepEnd (t : Nat) (s : State) : Host.Outcome State Fault Refusal :=
  let a := advance s t
  ran s (live a (dirSweepOp a))

/-- Meaning of SPR_CHECK_END (14_sparing_rebuild.md R379). -/
def execSprCheckEnd (t : Nat) (s : State) : Host.Outcome State Fault Refusal :=
  let a := advance s t
  ran s (live a (sprCheckEnd a))

/-- Meaning of CNT_OVF (18_pmu_debug_events.md R468). -/
def execCntOvf (t : Nat) (n : Nat) (s : State) : Host.Outcome State Fault Refusal :=
  runOn s "counter" n 8 (advance s t)

end Sys2Proof.Machine
end

