-- ==== Sys2Proof/Machine/Dispatch.lean ====
section
/-!
DEFINITION. The dispatch: one arm for each command.
-/

namespace Sys2Proof.Machine

/-- What a command does to everything but the queue. -/
def exec (i : Instr) (s : State) : Host.Outcome State Fault Refusal :=
  match i with
  | .nop t p => Sys2Proof.Machine.execNop t p s
  | .rd t p => Sys2Proof.Machine.execRd t p s
  | .rdShared t p => Sys2Proof.Machine.execRdShared t p s
  | .rdUnique t p => Sys2Proof.Machine.execRdUnique t p s
  | .rdNoalloc t p => Sys2Proof.Machine.execRdNoalloc t p s
  | .wr t p => Sys2Proof.Machine.execWr t p s
  | .wrLine t p => Sys2Proof.Machine.execWrLine t p s
  | .wbDirty t p => Sys2Proof.Machine.execWbDirty t p s
  | .wbClean t p => Sys2Proof.Machine.execWbClean t p s
  | .atSwap t p => Sys2Proof.Machine.execAtSwap t p s
  | .atCas t p => Sys2Proof.Machine.execAtCas t p s
  | .atAddI t p => Sys2Proof.Machine.execAtAddI t p s
  | .atAddF32 t p => Sys2Proof.Machine.execAtAddF32 t p s
  | .atAddBf16x2 t p => Sys2Proof.Machine.execAtAddBf16x2 t p s
  | .atMinI t p => Sys2Proof.Machine.execAtMinI t p s
  | .atMaxI t p => Sys2Proof.Machine.execAtMaxI t p s
  | .atMinF t p => Sys2Proof.Machine.execAtMinF t p s
  | .atMaxF t p => Sys2Proof.Machine.execAtMaxF t p s
  | .atAnd t p => Sys2Proof.Machine.execAtAnd t p s
  | .atOr t p => Sys2Proof.Machine.execAtOr t p s
  | .atXor t p => Sys2Proof.Machine.execAtXor t p s
  | .atIncBound t p => Sys2Proof.Machine.execAtIncBound t p s
  | .atVaddF32 t p => Sys2Proof.Machine.execAtVaddF32 t p s
  | .atVacc t p => Sys2Proof.Machine.execAtVacc t p s
  | .mtCleanPa t p => Sys2Proof.Machine.execMtCleanPa t p s
  | .mtInvPa t p => Sys2Proof.Machine.execMtInvPa t p s
  | .mtClinvPa t p => Sys2Proof.Machine.execMtClinvPa t p s
  | .mtZeroPa t p => Sys2Proof.Machine.execMtZeroPa t p s
  | .mtCleanSw t p => Sys2Proof.Machine.execMtCleanSw t p s
  | .mtInvSw t p => Sys2Proof.Machine.execMtInvSw t p s
  | .mtClinvSw t p => Sys2Proof.Machine.execMtClinvSw t p s
  | .stPull t p => Sys2Proof.Machine.execStPull t p s
  | .stPullAbort t p => Sys2Proof.Machine.execStPullAbort t p s
  | .stPush t p => Sys2Proof.Machine.execStPush t p s
  | .regRd t p => Sys2Proof.Machine.execRegRd t p s
  | .regWr t p => Sys2Proof.Machine.execRegWr t p s
  | .intReceived t p => Sys2Proof.Machine.execIntReceived t p s
  | .evtReceived t p => Sys2Proof.Machine.execEvtReceived t p s
  | .fwdPacketRx t p => Sys2Proof.Machine.execFwdPacketRx t p s
  | .rspCompRx t p => Sys2Proof.Machine.execRspCompRx t p s
  | .datCompRx t p => Sys2Proof.Machine.execDatCompRx t p s
  | .rspAckRx t p => Sys2Proof.Machine.execRspAckRx t p s
  | .rspFwdDoneRx t p => Sys2Proof.Machine.execRspFwdDoneRx t p s
  | .rspFwdMissWbRx t p => Sys2Proof.Machine.execRspFwdMissWbRx t p s
  | .rspInvAckRx t p => Sys2Proof.Machine.execRspInvAckRx t p s
  | .datSnpRx t p => Sys2Proof.Machine.execDatSnpRx t p s
  | .cnetCreditRx t vc => Sys2Proof.Machine.execCnetCreditRx t vc s
  | .packetSend t => Sys2Proof.Machine.execPacketSend t s
  | .bFlitRx t f => Sys2Proof.Machine.execBFlitRx t f s
  | .bLate t entry beat => Sys2Proof.Machine.execBLate t entry beat s
  | .tick t frame => Sys2Proof.Machine.execTick t frame s
  | .tickLost t => Sys2Proof.Machine.execTickLost t s
  | .selfTimedFrame t => Sys2Proof.Machine.execSelfTimedFrame t s
  | .barRelease t id => Sys2Proof.Machine.execBarRelease t id s
  | .quench t => Sys2Proof.Machine.execQuench t s
  | .quenchRelease t => Sys2Proof.Machine.execQuenchRelease t s
  | .wakeGnt t tile count => Sys2Proof.Machine.execWakeGnt t tile count s
  | .faultRx t tile cls => Sys2Proof.Machine.execFaultRx t tile cls s
  | .faultRepeat t => Sys2Proof.Machine.execFaultRepeat t s
  | .intRetry t page => Sys2Proof.Machine.execIntRetry t page s
  | .errMaskWrite t p n => Sys2Proof.Machine.execErrMaskWrite t p n s
  | .abiSelWrite t p => Sys2Proof.Machine.execAbiSelWrite t p s
  | .fusedOffRequest t p => Sys2Proof.Machine.execFusedOffRequest t p s
  | .shellRequest t p => Sys2Proof.Machine.execShellRequest t p s
  | .wideLowRead t p n => Sys2Proof.Machine.execWideLowRead t p n s
  | .rgnCommitArm t p => Sys2Proof.Machine.execRgnCommitArm t p s
  | .rgnCommitCheckEnd t => Sys2Proof.Machine.execRgnCommitCheckEnd t s
  | .rgnCommitNow t p => Sys2Proof.Machine.execRgnCommitNow t p s
  | .rgnCommitCancel t p => Sys2Proof.Machine.execRgnCommitCancel t p s
  | .rgnShadowWrite t p n => Sys2Proof.Machine.execRgnShadowWrite t p n s
  | .thlReadComplete t => Sys2Proof.Machine.execThlReadComplete t s
  | .refreshRound t => Sys2Proof.Machine.execRefreshRound t s
  | .refLag t => Sys2Proof.Machine.execRefLag t s
  | .refMiss t => Sys2Proof.Machine.execRefMiss t s
  | .guardPrecharge t => Sys2Proof.Machine.execGuardPrecharge t s
  | .tempUpdate t deg => Sys2Proof.Machine.execTempUpdate t deg s
  | .thlInitStart t => Sys2Proof.Machine.execThlInitStart t s
  | .thlInitEnd t => Sys2Proof.Machine.execThlInitEnd t s
  | .tierFailWrite t p => Sys2Proof.Machine.execTierFailWrite t p s
  | .loadOpen t p => Sys2Proof.Machine.execLoadOpen t p s
  | .loadValidate t p => Sys2Proof.Machine.execLoadValidate t p s
  | .loadAbort t p => Sys2Proof.Machine.execLoadAbort t p s
  | .loadDataWrite t p => Sys2Proof.Machine.execLoadDataWrite t p s
  | .loadDataRead t p => Sys2Proof.Machine.execLoadDataRead t p s
  | .validationEnd t => Sys2Proof.Machine.execValidationEnd t s
  | .tickPeriodWrite t p => Sys2Proof.Machine.execTickPeriodWrite t p s
  | .unschedMinWrite t p => Sys2Proof.Machine.execUnschedMinWrite t p s
  | .energyCapWrite t p => Sys2Proof.Machine.execEnergyCapWrite t p s
  | .refreshReserveWrite t p => Sys2Proof.Machine.execRefreshReserveWrite t p s
  | .egress t entry => Sys2Proof.Machine.execEgress t entry s
  | .ingressStore t entry => Sys2Proof.Machine.execIngressStore t entry s
  | .ingressAcc t entry => Sys2Proof.Machine.execIngressAcc t entry s
  | .openGroup t entry => Sys2Proof.Machine.execOpenGroup t entry s
  | .discard t entry => Sys2Proof.Machine.execDiscard t entry s
  | .storeRound t entry => Sys2Proof.Machine.execStoreRound t entry s
  | .storeStats t entry => Sys2Proof.Machine.execStoreStats t entry s
  | .closeForward t entry => Sys2Proof.Machine.execCloseForward t entry s
  | .applyUpdate t entry => Sys2Proof.Machine.execApplyUpdate t entry s
  | .forwardSend t entry => Sys2Proof.Machine.execForwardSend t entry s
  | .forwardReceive t entry => Sys2Proof.Machine.execForwardReceive t entry s
  | .wakeTier t entry => Sys2Proof.Machine.execWakeTier t entry s
  | .sleepTier t entry => Sys2Proof.Machine.execSleepTier t entry s
  | .barrier t entry => Sys2Proof.Machine.execBarrier t entry s
  | .barTimeout t entry => Sys2Proof.Machine.execBarTimeout t entry s
  | .fence t entry => Sys2Proof.Machine.execFence t entry s
  | .vaccGrant t => Sys2Proof.Machine.execVaccGrant t s
  | .accInitDone t => Sys2Proof.Machine.execAccInitDone t s
  | .accCtlWrite t p => Sys2Proof.Machine.execAccCtlWrite t p s
  | .accCntClr t p => Sys2Proof.Machine.execAccCntClr t p s
  | .accDbgRead t p => Sys2Proof.Machine.execAccDbgRead t p s
  | .decCtlWrite t p => Sys2Proof.Machine.execDecCtlWrite t p s
  | .decCntClr t p => Sys2Proof.Machine.execDecCntClr t p s
  | .pullPacketSend t ctx => Sys2Proof.Machine.execPullPacketSend t ctx s
  | .arbDecision t => Sys2Proof.Machine.execArbDecision t s
  | .grantTmo t req => Sys2Proof.Machine.execGrantTmo t req s
  | .arbCommit t p => Sys2Proof.Machine.execArbCommit t p s
  | .arbCntClr t p => Sys2Proof.Machine.execArbCntClr t p s
  | .scrubRead t => Sys2Proof.Machine.execScrubRead t s
  | .patrolRead t => Sys2Proof.Machine.execPatrolRead t s
  | .leakTick t dom => Sys2Proof.Machine.execLeakTick t dom s
  | .waitTmo t slot => Sys2Proof.Machine.execWaitTmo t slot s
  | .wdogExp t => Sys2Proof.Machine.execWdogExp t s
  | .wdogKick t p => Sys2Proof.Machine.execWdogKick t p s
  | .stall t slot => Sys2Proof.Machine.execStall t slot s
  | .fsForce t p => Sys2Proof.Machine.execFsForce t p s
  | .rasCntClr t p => Sys2Proof.Machine.execRasCntClr t p s
  | .bktClr t p => Sys2Proof.Machine.execBktClr t p s
  | .scrubRestart t p => Sys2Proof.Machine.execScrubRestart t p s
  | .domCfgWrite t p n => Sys2Proof.Machine.execDomCfgWrite t p n s
  | .injArm t p => Sys2Proof.Machine.execInjArm t p s
  | .mapCommitArm t p => Sys2Proof.Machine.execMapCommitArm t p s
  | .mapCommitNow t p => Sys2Proof.Machine.execMapCommitNow t p s
  | .mapCommitCancel t p => Sys2Proof.Machine.execMapCommitCancel t p s
  | .atomicExec t pos => Sys2Proof.Machine.execAtomicExec t pos s
  | .bucketSteal t pos => Sys2Proof.Machine.execBucketSteal t pos s
  | .optSlotWrite t p n => Sys2Proof.Machine.execOptSlotWrite t p n s
  | .updCntClr t p => Sys2Proof.Machine.execUpdCntClr t p s
  | .allocWaitRetry t slot => Sys2Proof.Machine.execAllocWaitRetry t slot s
  | .fillTmo t set way => Sys2Proof.Machine.execFillTmo t set way s
  | .wbStall t buf => Sys2Proof.Machine.execWbStall t buf s
  | .cacheInitDone t => Sys2Proof.Machine.execCacheInitDone t s
  | .hostAgentWrite t p => Sys2Proof.Machine.execHostAgentWrite t p s
  | .cchCntClr t p => Sys2Proof.Machine.execCchCntClr t p s
  | .cchDbgRead t p => Sys2Proof.Machine.execCchDbgRead t p s
  | .blockedStart t slot => Sys2Proof.Machine.execBlockedStart t slot s
  | .blockTmo t slot => Sys2Proof.Machine.execBlockTmo t slot s
  | .fwdTmo t slot => Sys2Proof.Machine.execFwdTmo t slot s
  | .dirInitDone t => Sys2Proof.Machine.execDirInitDone t s
  | .dirWayRetire t p => Sys2Proof.Machine.execDirWayRetire t p s
  | .dirSweepEnd t => Sys2Proof.Machine.execDirSweepEnd t s
  | .dirCntClr t p => Sys2Proof.Machine.execDirCntClr t p s
  | .dirDbgRead t p => Sys2Proof.Machine.execDirDbgRead t p s
  | .sprCommitArm t p => Sys2Proof.Machine.execSprCommitArm t p s
  | .sprCheckEnd t => Sys2Proof.Machine.execSprCheckEnd t s
  | .sprCommitNow t p => Sys2Proof.Machine.execSprCommitNow t p s
  | .sprCommitCancel t p => Sys2Proof.Machine.execSprCommitCancel t p s
  | .sprShadowWrite t p n => Sys2Proof.Machine.execSprShadowWrite t p n s
  | .rebuildStart t p => Sys2Proof.Machine.execRebuildStart t p s
  | .rebuildPause t p => Sys2Proof.Machine.execRebuildPause t p s
  | .rebuildResume t p => Sys2Proof.Machine.execRebuildResume t p s
  | .rebuildAbort t p => Sys2Proof.Machine.execRebuildAbort t p s
  | .torifRetire t act => Sys2Proof.Machine.execTorifRetire t act s
  | .doorbellRing t p secure => Sys2Proof.Machine.execDoorbellRing t p secure s
  | .inDataWrite t p secure => Sys2Proof.Machine.execInDataWrite t p secure s
  | .outDataRead t p secure => Sys2Proof.Machine.execOutDataRead t p secure s
  | .outAck t p secure => Sys2Proof.Machine.execOutAck t p secure s
  | .inAbort t p secure => Sys2Proof.Machine.execInAbort t p secure s
  | .lockRead t p secure => Sys2Proof.Machine.execLockRead t p secure s
  | .lockWrite t p secure => Sys2Proof.Machine.execLockWrite t p secure s
  | .lockExpired t secure => Sys2Proof.Machine.execLockExpired t secure s
  | .mbxCtlWrite t p secure => Sys2Proof.Machine.execMbxCtlWrite t p secure s
  | .smcPopInbound t secure => Sys2Proof.Machine.execSmcPopInbound t secure s
  | .smcPushOutbound t secure words => Sys2Proof.Machine.execSmcPushOutbound t secure words s
  | .smcAckInbound t secure => Sys2Proof.Machine.execSmcAckInbound t secure s
  | .version t secure => Sys2Proof.Machine.execVersion t secure s
  | .ping t secure => Sys2Proof.Machine.execPing t secure s
  | .frameCopy t secure => Sys2Proof.Machine.execFrameCopy t secure s
  | .engDomainOff t p => Sys2Proof.Machine.execEngDomainOff t p s
  | .engDomainOn t p => Sys2Proof.Machine.execEngDomainOn t p s
  | .smcDomainOff t p => Sys2Proof.Machine.execSmcDomainOff t p s
  | .smcDomainOn t p => Sys2Proof.Machine.execSmcDomainOn t p s
  | .domainSwitchDone t => Sys2Proof.Machine.execDomainSwitchDone t s
  | .tierWakeCmd t p => Sys2Proof.Machine.execTierWakeCmd t p s
  | .tierSleepCmd t p => Sys2Proof.Machine.execTierSleepCmd t p s
  | .tierOffCmd t p => Sys2Proof.Machine.execTierOffCmd t p s
  | .wakeStart t => Sys2Proof.Machine.execWakeStart t s
  | .tierWakeDone t tier => Sys2Proof.Machine.execTierWakeDone t tier s
  | .wakeTmo t tier => Sys2Proof.Machine.execWakeTmo t tier s
  | .tierSleepDone t tier => Sys2Proof.Machine.execTierSleepDone t tier s
  | .wakeReqResend t => Sys2Proof.Machine.execWakeReqResend t s
  | .retainEnter t p => Sys2Proof.Machine.execRetainEnter t p s
  | .retainExit t p => Sys2Proof.Machine.execRetainExit t p s
  | .porstNAssert t => Sys2Proof.Machine.execPorstNAssert t s
  | .porstNRelease t good => Sys2Proof.Machine.execPorstNRelease t good s
  | .wrstNAssert t => Sys2Proof.Machine.execWrstNAssert t s
  | .wrstNRelease t => Sys2Proof.Machine.execWrstNRelease t s
  | .rstCtlCold t p => Sys2Proof.Machine.execRstCtlCold t p s
  | .rstCtlWarm t p => Sys2Proof.Machine.execRstCtlWarm t p s
  | .rstCtlFrame t p => Sys2Proof.Machine.execRstCtlFrame t p s
  | .rstCtlSmc t p => Sys2Proof.Machine.execRstCtlSmc t p s
  | .orderedResetRelease t => Sys2Proof.Machine.execOrderedResetRelease t s
  | .pmuCntClr t p => Sys2Proof.Machine.execPmuCntClr t p s
  | .pmuCntWrite t p n => Sys2Proof.Machine.execPmuCntWrite t p n s
  | .pmuCfgWrite t p n => Sys2Proof.Machine.execPmuCfgWrite t p n s
  | .cntOvf t n => Sys2Proof.Machine.execCntOvf t n s
  | .dbgModeWrite t p => Sys2Proof.Machine.execDbgModeWrite t p s
  | .dbgHalt t p => Sys2Proof.Machine.execDbgHalt t p s
  | .dbgResume t p => Sys2Proof.Machine.execDbgResume t p s
  | .dbgStep t p => Sys2Proof.Machine.execDbgStep t p s
  | .trcClr t p => Sys2Proof.Machine.execTrcClr t p s
  | .trcData0Read t p => Sys2Proof.Machine.execTrcData0Read t p s
  | .trcData3Read t p => Sys2Proof.Machine.execTrcData3Read t p s
  | .evtSelWrite t p n => Sys2Proof.Machine.execEvtSelWrite t p n s
  | .snetMessageDiscard t beat0 beat1 => Sys2Proof.Machine.execSnetMessageDiscard t beat0 beat1 s
  | .snetMessageSend t => Sys2Proof.Machine.execSnetMessageSend t s

end Sys2Proof.Machine
end

