-- ==== Sys2Proof/Safety.lean ====
section
/-!
DEFINITION. What counts as a safe run, and the terms that claims use: memory in its canonical form, straps that agree with the fuses, commands
that never stop the machine, the moment at which a packet is served, and what an answer to it says.
-/

namespace Sys2Proof.Machine

/-- The thallus is in its canonical form: cells rise by key, and none lists a chunk equal to what the unlisted cell reads as, where that is
defined. -/
def Memory.wf (s : State) : Bool :=
  smSorted s.thl.cells && s.thl.cells.all fun e =>
    let col := e.1 % 64
    let row := e.1 / 64 % 1032
    let bank := e.1 / (64 * 1032) % 16
    let t := e.1 / (64 * 1032 * 16)
    cellUndefined s t row || decide (e.2 ≠ cellBase s t bank row col)

/-- The straps are those of a slice (16 R446; 03 R80), and the slice is fused off exactly when its own bit of the good-slice map is 0
(16 R443). -/
def Straps.Legal (p : Straps) : Prop := p.chip < 2 ^ 15 ∧ p.tile < 2 ^ 8 ∧ p.fused = !p.good.getLsbD p.tile

/-- The queue holds only commands that the slice can run. -/
def Runnable (s : State) : Prop := ∀ c ∈ s.pending, c.wf s.straps.build = true

/-- A machine whose straps are legal and whose waiting commands all name objects it has. -/
def Safe (s : State) : Prop := s.straps.Legal ∧ Runnable s

/-! ### Packets on their way through the check stages -/

/-- The slice as a packet whose header reaches the input in sclk `t` finds it; the credits of its flits are owed (02 R45). -/
def atInput (s : State) (t : Nat) (p : CPacket) : State := sink (advance s t) p

/-- LOGIC hears the packet: no reset holds the ports, the slice is neither fused off nor in fail-stop nor served by its shell, and stages 1
and 2 pass (02 R65, R75; 16 R423). -/
def heard (s : State) (t : Nat) (p : CPacket) : Bool :=
  let a := atInput s t p
  !inReset (advance s t) && !a.straps.fused && !shellServes a && wellReceived a p && !failed a

/-- The packet is a request: it came on REQ or MGMT (02 R41). -/
def onRequest (p : CPacket) : Bool := p.vc.toNat == 0 || p.vc.toNat == 4

/-- The slice once the request has been counted (18 R467, CNET_REQ_IN) and its region, where it names one, has been looked up (03 R97). -/
def counted (s : State) (t : Nat) (p : CPacket) : State := lookUp (pmuReq (atInput s t p) 0x50 p.head) p.head p.vc.toNat

/-- The look-up has met no uncorrectable word of the region table, which would have stopped the slice (13 R347). -/
def tableSound (s : State) (t : Nat) (p : CPacket) : Bool := !failed (counted s t p)

/-- The first check stage that refuses the request, if any (02 R65). -/
def refusal (s : State) (t : Nat) (p : CPacket) : Option Nack :=
  if tableSound s t p then firstRefusal (counted s t p) p.head p.vc.toNat else none

/-- The region that the check of the request hits, as sclk 5 finds the table (03 R97, R105). -/
def regionOf (s : State) (t : Nat) (p : CPacket) : Option Region := hitRegion (dueBy (counted s t p) (max s.now t + 5)) p.head

/-- The slice at stage 12, seven sclk after the header, as the accepted request finds it: what fell due has happened, for a register write
what fell due before that very sclk (00 R14), and the request has been offered to the trace buffer (02 R66; 18 R478). -/
def atStage12 (s : State) (t : Nat) (p : CPacket) : State := traceReq (dueFor (counted s t p) p.head (max s.now t + 7)) p.head

/-- The slice accepts the packet as a request: it passes all the check stages (02 R65), and no fail-stop has come by stage 12 (02 R77). -/
def accepted (s : State) (t : Nat) (p : CPacket) : Bool :=
  heard s t p && onRequest p && tableSound s t p && (refusal s t p).isNone && !failed (atStage12 s t p)

/-- The packet last put on the output queue is `RSP_COMP` with this code and PARAM, addressed to the requester with the request's TXN, on MGMT
for a request on MGMT and else on RSP, its header free to leave in sclk `at_` (02 R51, R57, R62, R66). -/
def Answered (s : State) (p : CPacket) (code param at_ : Nat) : Prop :=
  ∃ o, s.fab.out.getLast? = some o ∧ o.vc = (if p.vc.toNat = 4 then 4 else 2) ∧ o.payload = [] ∧ o.readyAt = at_ ∧
    hOpcode o.head = 0x50 ∧ hResp o.head = code ∧ hTxn o.head = hTxn p.head ∧ hDst o.head = hSrc p.head ∧ hParam o.head = param

/-! ### What a command leaves as it was -/

/-- Every register but those of these keys. -/
def sameRegsBut (keys : List Nat) (a b : State) : Prop := ∀ k, k ∉ keys → b.rg k = a.rg k

/-- Everything outside the register file, the port units, the clock and the queue of commands. -/
def sameUnits (a b : State) : Prop :=
  b.straps = a.straps ∧ b.thl = a.thl ∧ b.rgn = a.rgn ∧ b.frm = a.frm ∧ b.acc = a.acc ∧ b.dec = a.dec ∧ b.upd = a.upd ∧ b.cch = a.cch ∧
    b.dir = a.dir ∧ b.obs = a.obs ∧ b.arb = a.arb ∧ b.ras = a.ras ∧ b.pwr = a.pwr ∧ b.spr = a.spr ∧ b.mbn = a.mbn ∧ b.mbs = a.mbs ∧
    b.drawn = a.drawn

/-- The port units but for packets added behind the output queue. -/
def samePorts (a b : State) : Prop := { b.fab with out := [] } = { a.fab with out := [] } ∧ ∃ l, b.fab.out = a.fab.out ++ l

/-- What recording an error, an event or a trace record, with the interrupt that may follow, leaves as it was: everything but registers, the
record stores, interrupts on their way and a wake of the SMC domain (00 R18-R20; 13 R361; 18 R465-R480). -/
def quietPart (s : State) :=
  (s.now, s.straps, s.thl, s.rgn, s.frm, s.acc, s.dec, s.upd, s.cch, s.dir, s.arb, s.spr, s.mbn, s.mbs, s.drawn, s.pending,
    { s.fab with out := [], ints := [], smcInts := [] }, { s.pwr with smc := .off }, s.ras.fsAt, s.obs.halted)

/-- `b` differs from `a` at most by what recording changes. -/
def Recorded (a b : State) : Prop := quietPart b = quietPart a

/-- Registers that a trace record may touch: a full or losing trace buffer is an error of page DBG, which may raise an interrupt, and an armed
injection may land in the trace SRAM (18 R480; 13 R373). -/
def traceKeys : List Nat := [rk 0x10 0x010, rk 0x10 0x018, rk 0x10 0x05C, rk 0x09 0x04C, rk 0x09 0x08C, rk 0x0B 0x040]

/-- A register write is done: it is answered `OK` eight sclk after its header, and every register but those of `keys` is as stage 12 found
it. -/
def Written (s : State) (t : Nat) (q : CPacket) (keys : List Nat) (b : State) : Prop :=
  Answered b q ok 0 (max s.now t + 8) ∧ sameRegsBut keys (atStage12 s t q) b ∧ b.now = max s.now t ∧ b.pending = s.pending ∧
    b.straps = s.straps

/-- A register write is answered with `code` eight sclk after its header. Every register but those of `keys` is as stage 12 found it, the
units are those of `u`, and the ports have the answer more. -/
def Done (s : State) (t : Nat) (q : CPacket) (code : Nat) (keys : List Nat) (u b : State) : Prop :=
  Answered b q code 0 (max s.now t + 8) ∧ sameRegsBut keys (atStage12 s t q) b ∧ sameUnits u b ∧ samePorts (atStage12 s t q) b ∧
    b.now = max s.now t ∧ b.pending = s.pending

/-- A register read is answered `OK` with the word `w`, `at_` sclk after its header; the rest is as for a write. -/
def ReadOut (s : State) (t : Nat) (q : CPacket) (w : Word) (at_ : Nat) (keys : List Nat) (u b : State) : Prop :=
  Answered b q ok w.toNat (max s.now t + at_) ∧ sameRegsBut keys (atStage12 s t q) b ∧ sameUnits u b ∧ samePorts (atStage12 s t q) b ∧
    b.now = max s.now t ∧ b.pending = s.pending

end Sys2Proof.Machine
end

