-- ==== Sys2Proof/Certificates/Slice0/Obligations.lean ====
section
/-!
DEFINITION. The statements for the provers. Where a statement speaks of a request, `accepted` and `atStage12` say when the slice takes it and
in which state its effect finds the slice (Sys2Proof/Safety.lean).
-/

open Sys2Proof Sys2Proof.Machine

/-! ### The machine as a whole -/

/-- A step takes the command at the front of the queue and is its meaning on the state with the queue's rest. -/
def Obligations.StepRunsFrontCommand : Prop :=
  ∀ (c : Instr) (rest : List Instr) (s : State), step { s with pending := c :: rest } = exec c { s with pending := rest }

/-- With an empty queue a step lets one sclk pass: the clock moves by one, the queue stays empty, the straps stay (the model's choice,
notes/assumptions/1.md). -/
def Obligations.IdleStepPassesOneSclk : Prop :=
  ∀ s : State, s.pending = [] → ∃ b, step s = .next b ∧ b.now = s.now + 1 ∧ b.pending = [] ∧ b.straps = s.straps ∧
    b.regs = (advance s (s.now + 1)).regs ∧ b.thl = (advance s (s.now + 1)).thl

/-- The state after reset is safe: its straps agree with the fuses, nothing waits, and memory is in its canonical form (the straps are the
model's choice, notes/assumptions/2.md). -/
def Obligations.ResetStateIsSafe : Prop := Safe State.reset ∧ State.reset.pending = [] ∧ Memory.wf State.reset = true

/-- Right after reset: sclk 0 of the release sequence, LOGIC on, T0-T8 queued for wake and T9 OFF, the frame engine IDLE with both halves
EMPTY, the tag, directory and lane initializations begun, and the registers at the values of their tables (16 R443; 19 R496). -/
def Obligations.ResetLeavesTheTabledValues : Prop :=
  State.reset.pwr.logic = true ∧ State.reset.pwr.queue = [0, 1, 2, 3, 4, 5, 6, 7, 8] ∧ (tier State.reset 9).st = .off ∧
    State.reset.frm.state = .idle ∧ State.reset.frm.inact = .empty ∧ State.reset.frm.active = none ∧
    State.reset.cch.initAt = some 0 ∧ State.reset.dir.initAt = some 0 ∧ State.reset.acc.initAt = some 0 ∧
    State.reset.rg (rk 0x00 0x000) = 0xA5000200#32 ∧ State.reset.rg (rk 0x11 0x014) = 0xFFFFFFFF#32 ∧ level State.reset = 2 ∧
    period State.reset = 3200 ∧ reserveReg State.reset = 192 ∧ tmoCnet State.reset = 32000 ∧ tmoWait State.reset = 16000

/-- Every step of a safe machine succeeds and leaves it safe: the next state holds the queue without its front, a clock that has not run back,
and the same build, chip and tile. -/
def Obligations.SafeStepsSucceedAndStaySafe : Prop :=
  ∀ s : State, Safe s → ∃ b, step s = .next b ∧ Safe b ∧ b.pending = s.pending.tail ∧ s.now ≤ b.now ∧
    b.straps.build = s.straps.build ∧ b.straps.chip = s.straps.chip ∧ b.straps.tile = s.straps.tile

/-- A command that names an object the slice does not have stops the machine by name, and no other command stops it (the model's choice,
notes/assumptions/3.md). -/
def Obligations.OnlyMissingObjectsStop : Prop :=
  ∀ (c : Instr) (s : State),
    (c.wf s.straps.build = false → ∃ what i, exec c s = .fault (.noSuchObject what i)) ∧
    (c.wf s.straps.build = true → ∃ b, exec c s = .next b ∧ b.pending = s.pending ∧ s.now ≤ b.now)

/-- A register write stores the bits of type RW, clears the bits of type W1C that it names, leaves every other bit of the register and every
other register, whatever register it is and whatever it held (00 R12, R13). -/
def Obligations.RegisterStoreFollowsBitTypes : Prop :=
  ∀ (s : State) (page ofs : Nat) (d : Word),
    (∀ i, i < 32 → bit ((storeWord s page ofs d).rg (rk page ofs)) i =
      ((if (rwMask s.straps.build page ofs).testBit i then bit d i else bit (s.rg (rk page ofs)) i) &&
        !(bit d i && (w1cMask s.straps.build page ofs).testBit i))) ∧
    sameRegsBut [rk page ofs] s (storeWord s page ofs d) ∧ sameUnits s (storeWord s page ofs d)

/-! ### Stored lines -/

/-- The tier of a chunk cell, and the cell, exist. -/
def cellExists (t bank row col : Nat) : Prop := t < 10 ∧ bank < 16 ∧ row < 1032 ∧ col < 64

/-- A chunk written to a cell reads back, every other cell reads as before, and memory keeps its canonical form. -/
def Obligations.ChunkWritesReadBack : Prop :=
  ∀ (s : State) (t bank row col : Nat) (c : BitVec 144), cellExists t bank row col →
    readCell (writeCell s t bank row col c) t bank row col = c ∧
    (∀ t' bank' row' col', cellExists t' bank' row' col' → (t', bank', row', col') ≠ (t, bank, row, col) →
      readCell (writeCell s t bank row col c) t' bank' row' col' = readCell s t' bank' row' col') ∧
    (Memory.wf s = true → Memory.wf (writeCell s t bank row col c) = true)

/-- A line stored while every position has its tier and no row fill is pending for it reads back as it was stored: its bytes, its spores and
its EPOCH, with no error in any tier, whatever spare rows the CAMs put in its place (04 R111-R114, R122, R124, R126). -/
def Obligations.StoredLinesReadBack : Prop :=
  ∀ (s : State) (line epoch : Nat) (l : Line), line < 2 ^ 20 → (∀ p, p < 9 → tierFailed s p = false) →
    (∀ p, p < 9 → fillPending s p line = false) →
    let r := readLine (storeLine s line l epoch) line
    r.line = l ∧ r.epoch = epoch % 16 ∧ r.ue = false ∧ r.badTiers = [] ∧ r.recon = false

/-- A tier that is lost keeps no chunk, its contents are new undefined values, the other tiers keep theirs, and memory keeps its canonical
form (04 R132). -/
def Obligations.TierLossUndefinesOneTier : Prop :=
  ∀ (s : State) (t : Nat), t < 10 →
    (∀ bank row col, cellExists t bank row col →
      readCell (loseTier s t) t bank row col = Config.undefinedChunk (nth s.thl.gen t 0 + 1) (cellKey t bank row col)) ∧
    (∀ t' bank row col, t' ≠ t → cellExists t' bank row col → readCell (loseTier s t) t' bank row col = readCell s t' bank row col) ∧
    (Memory.wf s = true → Memory.wf (loseTier s t) = true)


/-! ### Register writes of pages FRM and RGN -/

/-- A write of TICK_PERIOD, UNSCHED_MIN or ENERGY_CAP with a value of its range that changes the register stores it and empties both halves, in
IDLE and STOPPED with nothing being validated, and is refused `NACK_BUSY` else; one that changes nothing is answered `OK` in any state (05
R181). -/
def Obligations.FrameParametersDiscardPrograms : Prop :=
  ∀ (s : State) (t : Nat) (p : CPacket), ∀ r ∈ [(Instr.tickPeriodWrite t p, 0x048, 16, 1600, 102400),
      (Instr.unschedMinWrite t p, 0x050, 5, 8, 56), (Instr.energyCapWrite t p, 0x054, 9, 1, 512)],
    let q := writeOf p 0x01 r.2.1
    let a := atStage12 s t q
    let v := fld (hData p.head) r.2.2.1 0
    let k := rk 0x01 r.2.1
    accepted s t q = true → r.2.2.2.1 ≤ v → v ≤ r.2.2.2.2 → (r.2.1 = 0x048 → reserveReg a ≤ v) →
    ∃ b, exec r.1 s = .next b ∧
      if a.rf k r.2.2.1 0 = v then Done s t q ok [] a b
      else if (a.frm.state = .idle ∨ a.frm.state = .stopped) ∧ a.frm.inact ≠ .validating then
        Written s t q (k :: rk 0x01 0x07C :: rk 0x01 0x084 :: traceKeys) b ∧ b.rf k r.2.2.1 0 = v ∧ b.thl = a.thl ∧
          b.frm.active = none ∧ b.frm.pend = none ∧ b.frm.inact = .empty ∧ b.frm.state = a.frm.state ∧
          ∀ i, i < 8192 → smGetD b.frm.mem (a.frm.activeHalf * 8192 + i) 0 = 0 ∧ smGetD b.frm.mem (otherHalf a * 8192 + i) 0 = 0
      else Done s t q nackBusy [] a b

/-- A write of REFRESH_RESERVE with a nonzero multiple of 192 that the period holds is accepted when it fits every held program, and answered
`NACK_FRAME` without effect when it does not (05 R182). -/
def Obligations.RefreshReserveFitsHeldPrograms : Prop :=
  ∀ (s : State) (t : Nat) (p : CPacket),
    let q := writeOf p 0x01 0x04C
    let a := atStage12 s t q
    let v := fld (hData p.head) 15 0
    let fits := (a.frm.active.toList ++ a.frm.pend.toList).all (reserveFits a v)
    accepted s t q = true → v ≠ 0 → v % 192 = 0 → v ≤ period a → a.frm.inact ≠ .validating →
    ∃ b, exec (.refreshReserveWrite t p) s = .next b ∧
      Done s t q (if fits then ok else nackFrame) (if fits then [rk 0x01 0x04C] else []) a b ∧ (fits = true → reserveReg b = v)

/-- OPEN zeroes the other half and takes it to OPENED with LOAD_PTR at 0; VALIDATE of an OPENED half starts its validation and else answers
`NACK_FRAME`; ABORT of an OPENED or VALIDATING half zeroes it and leaves it EMPTY (05 R167). -/
def Obligations.LoadCommandsMoveTheOtherHalf : Prop :=
  ∀ (s : State) (t : Nat) (p : CPacket),
    (let q := actOf p 0x01 0x058 [0] [1, 2]
     let a := atStage12 s t q
     accepted s t q = true → a.frm.inact ≠ .validating →
     ∃ b, exec (.loadOpen t p) s = .next b ∧
       Written s t q (rk 0x01 0x058 :: rk 0x01 0x05C :: rk 0x01 0x064 :: rk 0x01 0x084 :: traceKeys) b ∧ b.thl = a.thl ∧
       b.frm.inact = .opened ∧ b.frm.pend = none ∧ b.frm.active = a.frm.active ∧ b.rg (rk 0x01 0x05C) = 0 ∧
       (∀ i, i < 8192 → smGetD b.frm.mem (otherHalf a * 8192 + i) 0 = 0) ∧
       ∀ k, k / 8192 ≠ otherHalf a → smGetD b.frm.mem k 0 = smGetD a.frm.mem k 0) ∧
    (let q := actOf p 0x01 0x058 [1] [0, 2]
     let a := atStage12 s t q
     accepted s t q = true →
     ∃ b, exec (.loadValidate t p) s = .next b ∧
       if a.frm.inact = .opened then
         Done s t q ok [rk 0x01 0x058] { a with frm := { a.frm with
           inact := .validating, valAt := some (max s.now t + 7, hS q.head), valSeq := a.rb (rk 0x01 0x040) 1 } } b
       else Done s t q nackFrame [] a b) ∧
    (let q := actOf p 0x01 0x058 [2] []
     let a := atStage12 s t q
     accepted s t q = true → (a.frm.inact = .opened ∨ a.frm.inact = .validating) →
     ∃ b, exec (.loadAbort t p) s = .next b ∧ Written s t q (rk 0x01 0x058 :: rk 0x01 0x084 :: traceKeys) b ∧ b.thl = a.thl ∧
       b.frm.inact = .empty ∧ b.frm.valAt = none ∧ b.frm.active = a.frm.active ∧
       (∀ i, i < 8192 → smGetD b.frm.mem (otherHalf a * 8192 + i) 0 = 0) ∧
       ∀ k, k / 8192 ≠ otherHalf a → smGetD b.frm.mem k 0 = smGetD a.frm.mem k 0)

/-- A LOAD_DATA write stores its word where LOAD_PTR points in the opened half, and a read returns the word where it points, 0 past the end or
in an EMPTY half; either moves the pointer on, and the read stops at 8,192 (05 R167, R168). The word read is free of errors here. -/
def Obligations.LoadDataFollowsThePointer : Prop :=
  ∀ (s : State) (t : Nat) (p : CPacket),
    (let q := writeOf p 0x01 0x060
     let a := atStage12 s t q
     let n := a.rf (rk 0x01 0x05C) 13 0
     accepted s t q = true → a.frm.inact = .opened → n < 8192 →
     ∃ b, exec (.loadDataWrite t p) s = .next b ∧
       Done s t q ok [rk 0x01 0x05C, kInj] { a with
         frm := { a.frm with mem := smSet a.frm.mem (otherHalf a * 8192 + n) (hData p.head) 0 }
         ras := { a.ras with upsets := b.ras.upsets } } b ∧
       b.rg (rk 0x01 0x05C) = BitVec.ofNat 32 (n + 1) ∧ smGetD b.frm.mem (otherHalf a * 8192 + n) 0 = hData p.head ∧
       ∀ k, k ≠ otherHalf a * 8192 + n → smGetD b.frm.mem k 0 = smGetD a.frm.mem k 0) ∧
    (let q := readOf p 0x01 0x060
     let a := atStage12 s t q
     let n := a.rf (rk 0x01 0x05C) 13 0
     let act := a.rb (rk 0x01 0x058) 3
     let half := if act then a.frm.activeHalf else otherHalf a
     let none_ := if act then a.frm.active.isNone else a.frm.inact == .empty
     accepted s t q = true → (∀ x ∈ a.ras.upsets, x.1 ≠ 16) →
     ∃ b, exec (.loadDataRead t p) s = .next b ∧
       ReadOut s t q (if none_ = true ∨ 8192 ≤ n then 0 else smGetD a.frm.mem (half * 8192 + n) 0) 8 [rk 0x01 0x05C] a b ∧
       b.rg (rk 0x01 0x05C) = BitVec.ofNat 32 (min (n + 1) 8192))

/-- Arming a region table commit starts its check unless one is pending; cancelling notes the sclk in which a pending one ends; a commit
without a tick is refused `NACK_BUSY` while a commit is pending or a program is held, and else the check of the shadow copy as it stands begins,
with its answer due 70 sclk after the header (03 R101, R103, R104; what the check reads is the model's choice, notes/assumptions/50.md). -/
def Obligations.RegionCommitsArmEndAndCancel : Prop :=
  ∀ (s : State) (t : Nat) (p : CPacket),
    (let q := actOf p 0x02 0x040 [0] [1, 2]
     let a := atStage12 s t q
     accepted s t q = true → ∃ b, exec (.rgnCommitArm t p) s = .next b ∧ Done s t q ok [] (if a.rgn.pending then a else { a with
       rgn := { a.rgn with pending := true, checking := true, armedAt := max s.now t + 7, heldEnts := heldEntries a, checked := 0, fault := none }
       frm := { a.frm with valAt := a.frm.valAt.map fun v => (max s.now t + 7, v.2), valSeq := a.rb (rk 0x01 0x040) 1 } }) b) ∧
    (let q := actOf p 0x02 0x040 [2] []
     let a := atStage12 s t q
     accepted s t q = true → ∃ b, exec (.rgnCommitCancel t p) s = .next b ∧ Done s t q ok []
       (if a.rgn.pending then { a with rgn := { a.rgn with cancelAt := some (max s.now t + 7) } } else a) b) ∧
    (let q := actOf p 0x02 0x040 [1] [0, 2]
     let a := atStage12 s t q
     accepted s t q = true → (a.rgn.pending || anyHeld a) = true →
     ∃ b, exec (.rgnCommitNow t p) s = .next b ∧ Done s t q nackBusy [] a b) ∧
    (let q := actOf p 0x02 0x040 [1] [0, 2]
     let a := atStage12 s t q
     accepted s t q = true → (a.rgn.pending || anyHeld a) = false → ∀ n, freeSlot a = some n →
     ∃ b, exec (.rgnCommitNow t p) s = .next b ∧ sameRegsBut [] a b ∧
       b.fab = { a.fab with reqs := smPut a.fab.reqs n { head := q.head, payload := [], vc := q.vc.toNat, arrived := max s.now t
                                                         progress := max s.now t + 70, phase := .regWait } } ∧
       sameUnits { a with rgn := { a.rgn with nows := a.rgn.nows ++ [⟨max s.now t + 7, shdWords a, 0, none⟩] } } b)

/-- A write of a word of the shadow region table stores its RW bits; without S it is refused `NACK_SEC` and logged where the entry is SECURE
in either copy or would become so, and else it is refused `NACK_BUSY` while a commit is pending (03 R100, R101, R109). -/
def Obligations.RegionShadowWritesAreGuarded : Prop :=
  ∀ (s : State) (t : Nat) (p : CPacket) (n : Nat), n < 128 →
    let q := writeOf p 0x02 (0x100 + 4 * n)
    let a := atStage12 s t q
    let k := rk 0x02 (0x100 + 4 * n)
    let sec := shadowSecure a (n / 2) || (n % 2 == 1 && bit (hData p.head) 3)
    accepted s t q = true →
    ∃ b, exec (.rgnShadowWrite t p n) s = .next b ∧
      if hS p.head = false ∧ sec = true then Answered b q nackSec 0 (max s.now t + 8) ∧ b.rb (rk 0x02 0x010) 3 = true ∧ b.rgn = a.rgn ∧ b.rg k = a.rg k
      else if a.rgn.pending = true then Done s t q nackBusy [] a b
      else Done s t q ok [k, kInj] { a with ras := { a.ras with upsets := b.ras.upsets } } b ∧
        b.rg k = (storeWord a 0x02 (0x100 + 4 * n) (hData p.head)).rg k

/-! ### Register writes of the other block pages -/

/-- Arming a map commit while none waits starts it when the shadow map is sound, and records its first fault when it is not; while one waits
it is refused `NACK_BUSY`. Cancelling notes the sclk in which a waiting one ends. A commit without a tick of a sound map in an idle slice is to
take effect as it stands, with its answer due 16 sclk after the header (10 R272, R273). -/
def Obligations.MapCommitsArmEndAndCancel : Prop :=
  ∀ (s : State) (t : Nat) (p : CPacket),
    (let q := actOf p 0x06 0x04C [0] [1, 2]
     let a := atStage12 s t q
     accepted s t q = true → a.upd.mapAt = none → mapFault a = none → ∃ b, exec (.mapCommitArm t p) s = .next b ∧
       Done s t q ok [] { a with upd := { a.upd with mapAt := some (max s.now t + 7) } } b) ∧
    (let q := actOf p 0x06 0x04C [0] [1, 2]
     let a := atStage12 s t q
     accepted s t q = true → a.upd.mapAt = none → ∀ pos eng, mapFault a = some (pos, eng) → ∃ b, exec (.mapCommitArm t p) s = .next b ∧
       Answered b q ok 0 (max s.now t + 8) ∧ b.upd = a.upd ∧ b.rb (rk 0x06 0x048) 3 = true ∧ b.rf (rk 0x06 0x048) 7 4 = pos ∧
       b.rb (rk 0x06 0x010) 2 = true) ∧
    (let q := actOf p 0x06 0x04C [0] [1, 2]
     let a := atStage12 s t q
     accepted s t q = true → a.upd.mapAt ≠ none → ∃ b, exec (.mapCommitArm t p) s = .next b ∧ Done s t q nackBusy [] a b) ∧
    (let q := actOf p 0x06 0x04C [2] []
     let a := atStage12 s t q
     accepted s t q = true → ∃ b, exec (.mapCommitCancel t p) s = .next b ∧ Done s t q ok []
       (if a.upd.mapAt.isSome then { a with upd := { a.upd with mapCancel := some (max s.now t + 7) } } else a) b) ∧
    (let q := actOf p 0x06 0x04C [1] [0, 2]
     let a := atStage12 s t q
     accepted s t q = true → (a.frm.state = .idle ∨ a.frm.state = .stopped) → a.acc.groups = [] → a.upd.mapAt = none → mapFault a = none →
     ∀ n, freeSlot a = some n → ∃ b, exec (.mapCommitNow t p) s = .next b ∧ sameRegsBut [] a b ∧
       b.fab = { a.fab with reqs := smPut a.fab.reqs n { head := q.head, payload := [], vc := q.vc.toNat, arrived := max s.now t
                                                         progress := max s.now t + 16, phase := .regWait } } ∧
       sameUnits { a with upd := { a.upd with mapNows := a.upd.mapNows ++ [(max s.now t + 16, mapWords a)] } } b)

/-- The same for sparing commits, whose answer without a tick is due 664 sclk after the header (14 R378, R380). -/
def Obligations.SparingCommitsArmEndAndCancel : Prop :=
  ∀ (s : State) (t : Nat) (p : CPacket),
    (let q := actOf p 0x0A 0x044 [0] [1, 2]
     let a := atStage12 s t q
     accepted s t q = true → ∃ b, exec (.sprCommitArm t p) s = .next b ∧ Done s t q ok [] (if a.spr.pending then a else { a with
       spr := { a.spr with pending := true, checking := true, armed := some ⟨max s.now t + 7, a.spr.camShd, a.spr.laneShd, 0, none⟩ } }) b) ∧
    (let q := actOf p 0x0A 0x044 [2] []
     let a := atStage12 s t q
     accepted s t q = true → ∃ b, exec (.sprCommitCancel t p) s = .next b ∧
       Done s t q ok [] (if a.spr.pending then { a with spr := { a.spr with cancelAt := some (max s.now t + 7) } } else a) b) ∧
    (let q := actOf p 0x0A 0x044 [1] [0, 2]
     let a := atStage12 s t q
     accepted s t q = true → (a.frm.state ≠ .idle ∧ a.frm.state ≠ .stopped ∨ a.spr.pending = true) →
     ∃ b, exec (.sprCommitNow t p) s = .next b ∧ Done s t q nackBusy [] a b) ∧
    (let q := actOf p 0x0A 0x044 [1] [0, 2]
     let a := atStage12 s t q
     accepted s t q = true → (a.frm.state = .idle ∨ a.frm.state = .stopped) → a.spr.pending = false → ∀ n, freeSlot a = some n →
     ∃ b, exec (.sprCommitNow t p) s = .next b ∧ sameRegsBut [] a b ∧
       b.fab = { a.fab with reqs := smPut a.fab.reqs n { head := q.head, payload := [], vc := q.vc.toNat, arrived := max s.now t
                                                         progress := max s.now t + 664, phase := .regWait } } ∧
       sameUnits { a with spr := { a.spr with nows := a.spr.nows ++ [⟨max s.now t + 7, a.spr.camShd, a.spr.laneShd, 0, none⟩] } } b)

/-- A write of a shadow sparing word stores its RW bits in the shadow CAM of the selected tier, in the shadow lane map, or in CAM_SEL; it is
refused `NACK_BUSY` while a commit is pending (14 R378). -/
def Obligations.SparingShadowWritesStoreOneWord : Prop :=
  ∀ (s : State) (t : Nat) (p : CPacket) (n : Nat), n < 73 →
    let q := writeOf p 0x0A (sprWordOfs n)
    let a := atStage12 s t q
    let d := hData p.head
    let sel := a.rf (rk 0x0A 0x04C) 3 0
    accepted s t q = true → (n = 72 → fld d 3 0 ≤ 9) →
    ∃ b, exec (.sprShadowWrite t p n) s = .next b ∧
      if a.spr.pending then Done s t q nackBusy [] a b
      else if n < 64 then
        Done s t q ok [kInj] { a with
          spr := { a.spr with camShd := b.spr.camShd }
          ras := { a.ras with upsets := b.ras.upsets } } b ∧ camShd b sel n = d &&& 0x8001FFFF#32 ∧
          ∀ k, k ≠ sel * 64 + n → smGetD b.spr.camShd k 0 = smGetD a.spr.camShd k 0
      else if n < 72 then
        Done s t q ok [] { a with spr := { a.spr with laneShd := b.spr.laneShd } } b ∧
          smGetD b.spr.laneShd (n - 64) 0 = d &&& 0x87FF87FF#32 ∧ ∀ k, k ≠ n - 64 → smGetD b.spr.laneShd k 0 = smGetD a.spr.laneShd k 0
      else Done s t q ok [rk 0x0A 0x04C] a b ∧ b.rf (rk 0x0A 0x04C) 3 0 = fld d 3 0

/-- START of a rebuild that R386 allows takes the position, the front at line 0 and no frames counted, and runs at once when T9 is AWAKE and
else waits for its wake; a START it does not allow answers `NACK_BUSY`. PAUSE holds a RUNNING rebuild, RESUME lets a PAUSED one run, and ABORT
ends one that has begun and is not DONE (14 R386, R389). -/
def Obligations.RebuildCommandsMoveTheRebuild : Prop :=
  ∀ (s : State) (t : Nat) (p : CPacket),
    (let q := actOf p 0x0A 0x054 [0] [1, 2, 3]
     let a := atStage12 s t q
     let pos := fld (hData p.head) 7 4
     accepted s t q = true → rebuildMay a pos = true →
     ∃ b, exec (.rebuildStart t p) s = .next b ∧ Written s t q (rk 0x0A 0x054 :: rk 0x0A 0x060 :: traceKeys) b ∧ b.thl = a.thl ∧ b.frm = a.frm ∧
       b.rg (rk 0x0A 0x060) = 0 ∧
       b.spr = { a.spr with rebuild := if (tier a 9).st = .awake then .running else .waking, pos := pos, front := 0, serves := false }) ∧
    (let q := actOf p 0x0A 0x054 [0] [1, 2, 3]
     let a := atStage12 s t q
     accepted s t q = true → fld (hData p.head) 7 4 ≤ 8 → rebuildMay a (fld (hData p.head) 7 4) = false →
     ∃ b, exec (.rebuildStart t p) s = .next b ∧ Done s t q nackBusy [] a b) ∧
    (∀ r ∈ [(Instr.rebuildPause t p, actOf p 0x0A 0x054 [1] [0, 2, 3], RebuildSt.running, RebuildSt.paused),
        (Instr.rebuildResume t p, actOf p 0x0A 0x054 [2] [0, 1, 3], RebuildSt.paused, RebuildSt.running)],
      let a := atStage12 s t r.2.1
      accepted s t r.2.1 = true → fld (hData p.head) 7 4 ≤ 8 →
      ∃ b, exec r.1 s = .next b ∧
        Done s t r.2.1 ok [rk 0x0A 0x054]
          (if a.spr.rebuild = r.2.2.1 then { a with spr := { a.spr with rebuild := r.2.2.2 } } else a) b) ∧
    (let q := actOf p 0x0A 0x054 [3] []
     let a := atStage12 s t q
     accepted s t q = true → fld (hData p.head) 7 4 ≤ 8 →
     ∃ b, exec (.rebuildAbort t p) s = .next b ∧ Answered b q ok 0 (max s.now t + 8) ∧ b.thl = a.thl ∧ b.frm = a.frm ∧
       if a.spr.rebuild = .waking ∨ a.spr.rebuild = .running ∨ a.spr.rebuild = .paused then
         b.spr = { a.spr with rebuild := .idle, front := 0, serves := false } ∧ b.rb (rk 0x0A 0x010) 2 = true
       else b.spr = a.spr)

/-- Clearing the counters of the cache, the directory or the arbiter zeroes each of them and changes nothing else; COMMIT of the arbiter puts
the shadow configuration of every requester in force (11 R318; 12 R345; 17 R460, R463). -/
def Obligations.CounterClearsAndArbiterCommit : Prop :=
  ∀ (s : State) (t : Nat) (p : CPacket),
    (∀ r ∈ [(Instr.cchCntClr t p, 0x04, (List.range 9).map (0x064 + 4 * ·)), (Instr.dirCntClr t p, 0x05, (List.range 7).map (0x058 + 4 * ·)),
        (Instr.arbCntClr t p, 0x0E, [0x050, 0x054] ++ (List.range 10).map (0x140 + 4 * ·))],
      let q := actOf p r.2.1 0x040 [0] []
      accepted s t q = true → ∃ b, exec r.1 s = .next b ∧ Done s t q ok (r.2.2.map (rk r.2.1)) (atStage12 s t q) b ∧
        ∀ o ∈ r.2.2, b.rg (rk r.2.1 o) = 0) ∧
    (let q := actOf p 0x0E 0x048 [0] []
     let a := atStage12 s t q
     accepted s t q = true → ∃ b, exec (.arbCommit t p) s = .next b ∧
       Done s t q ok ((List.range 10).map fun n => rk 0x0E (0x0C0 + 4 * n)) a b ∧
       ∀ n, n < 10 → b.rg (rk 0x0E (0x0C0 + 4 * n)) = a.rg (rk 0x0E (0x080 + 4 * n)))

/-- A write of ACC.CTL or DEC.CTL stores the saturation fields of its page, which take effect at once when it changes them in a state other than
RUNNING and else with the next frame, and zeroes the page's counters when its CNT_CLR is 1 (07 R218, R222; 08 R252). -/
def Obligations.SaturationControlsAndTheirCounters : Prop :=
  ∀ (s : State) (t : Nat) (p : CPacket),
    ∀ r ∈ [(Instr.accCtlWrite t p, writeOf p 0x07 0x040, 0x07, (List.range 6).map (0x058 + 4 * ·)),
        (Instr.accCntClr t p, actOf p 0x07 0x040 [2] [], 0x07, (List.range 6).map (0x058 + 4 * ·)),
        (Instr.decCtlWrite t p, writeOf p 0x08 0x040, 0x08, (List.range 8).map (0x054 + 4 * ·) ++ (List.range 4).map (0x080 + 4 * ·)),
        (Instr.decCntClr t p, actOf p 0x08 0x040 [2] [], 0x08, (List.range 8).map (0x054 + 4 * ·) ++ (List.range 4).map (0x080 + 4 * ·))],
      let q := r.2.1
      let a := atStage12 s t q
      let k := rk r.2.2.1 0x040
      let d := hData q.head
      let waits := a.frm.state = .running ∨ (bit d 0 = a.rb k 0 ∧ bit d 1 = a.rb k 1)
      let u := if waits then a
        else if r.2.2.1 = 0x07 then { a with acc := { a.acc with satFp8 := bit d 0, satWide := bit d 1 } }
        else { a with dec := { a.dec with satFp8 := bit d 0, satWide := bit d 1 } }
      accepted s t q = true →
      ∃ b, exec r.1 s = .next b ∧ Done s t q ok (k :: if bit d 2 then r.2.2.2.map (rk r.2.2.1) else []) u b ∧
        b.rb k 0 = bit d 0 ∧ b.rb k 1 = bit d 1 ∧ (bit d 2 = true → ∀ o ∈ r.2.2.2, b.rg (rk r.2.2.1 o) = 0)

/-- CNT_CLR of UPD zeroes the page's counters and stores the RW bits of CTL; a write of a step slot word stores it, or while the engine is
RUNNING holds it and marks its slot (10 R288, R294). -/
def Obligations.UpdateCountersAndSlotWords : Prop :=
  ∀ (s : State) (t : Nat) (p : CPacket),
    (let q := actOf p 0x06 0x040 [1] []
     let a := atStage12 s t q
     let n := fld (hData p.head) 5 2
     accepted s t q = true → 1 ≤ n → n ≤ 8 → ∃ b, exec (.updCntClr t p) s = .next b ∧
       Done s t q ok (rk 0x06 0x040 :: (List.range 5).map fun i => rk 0x06 (0x0A0 + 4 * i)) a b ∧
       b.rf (rk 0x06 0x040) 5 2 = n ∧ ∀ i, i < 5 → b.rg (rk 0x06 (0x0A0 + 4 * i)) = 0) ∧
    ∀ n, n < 144 →
      let q := writeOf p 0x06 (slotWordOfs n)
      let a := atStage12 s t q
      accepted s t q = true → ∃ b, exec (.optSlotWrite t p n) s = .next b ∧
        if a.frm.state = .running then
          Done s t q ok [rk 0x06 0x0B4] { a with upd := { a.upd with
            held := (a.upd.held.filter fun w => w.1 != slotWordOfs n) ++ [(slotWordOfs n, hData p.head)] } } b ∧ b.rb (rk 0x06 0x0B4) (n / 9) = true
        else Done s t q ok [rk 0x06 (slotWordOfs n)] a b ∧ b.rg (rk 0x06 (slotWordOfs n)) = hData p.head

/-- A write of ERR_MASK stores the whole word on every page, and an error that it unmasks raises the page's interrupt; nothing but records,
interrupts and a mailbox lock's time can change besides (00 R20, R21). -/
def Obligations.ErrorMaskWritesUnmaskErrors : Prop :=
  ∀ (s : State) (t : Nat) (p : CPacket) (n : Nat), n < 18 →
    let q := writeOf p n 0x014
    let a := atStage12 s t q
    accepted s t q = true →
    ∃ b, exec (.errMaskWrite t p n) s = .next b ∧ Written s t q [rk n 0x014, rk 0x0B 0x040] b ∧ b.rg (rk n 0x014) = hData p.head ∧
      Recorded { a with now := b.now, pending := b.pending, mbn := b.mbn, mbs := b.mbs } b ∧ (n ≠ 0x0C → b.mbn = a.mbn) ∧ (n ≠ 0x0D → b.mbs = a.mbs) ∧
      (errPending a n = false → errPending b n = true → a.rb (rk n 0x008) 0 = true → fld (a.rg (rk n 0x01C)) 1 0 = 1 →
        ∃ i ∈ b.fab.ints, i.page = n ∧ i.dest = 1 ∧ i.attempts = 1)

/-- A write of ABI_SEL with level 1 or 2 is refused `NACK_BUSY` in a state that runs frames or will; one that keeps the level changes nothing;
one that changes it stores it and empties both halves, stopping a validation without a result (00 R5, R6). A write of HOST_AGENT that keeps the agent, or finds no fill and no writeback
outstanding, stores it; any other is refused `NACK_BUSY` (11 R305, R318). -/
def Obligations.AbiLevelAndHostAgentChanges : Prop :=
  (∀ (s : State) (t : Nat) (p : CPacket),
     let q := writeOf p 0x00 0x048
     let a := atStage12 s t q
     let v := fld (hData p.head) 3 0
     accepted s t q = true → (v = 1 ∨ v = 2) →
     ∃ b, exec (.abiSelWrite t p) s = .next b ∧
       if a.frm.state = .running ∨ a.frm.state = .resync ∨ a.frm.state = .quenched then Done s t q nackBusy [] a b
       else if level a = v then Done s t q ok [] a b
       else Written s t q (rk 0x00 0x048 :: rk 0x01 0x07C :: rk 0x01 0x084 :: traceKeys) b ∧ level b = v ∧ b.thl = a.thl ∧
         b.frm.active = none ∧ b.frm.pend = none ∧ b.frm.inact = .empty ∧ b.frm.valAt = none ∧ b.frm.state ≠ .stopped) ∧
  (∀ (s : State) (t : Nat) (p : CPacket),
     let q := writeOf p 0x04 0x05C
     let a := atStage12 s t q
     let k := rk 0x04 0x05C
     let free := (a.rg k &&& 0x800003FF#32) == (hData p.head &&& 0x800003FF#32) || (a.cch.fills.isEmpty && a.cch.wb.isEmpty)
     accepted s t q = true →
     ∃ b, exec (.hostAgentWrite t p) s = .next b ∧
       if free then Done s t q ok [k] a b ∧ hostAgent b = (if bit (hData p.head) 31 then some (fld (hData p.head) 9 0) else none)
       else Done s t q nackBusy [] a b)

/-- The tiers that a write of TIER_FAIL declares: those it names that are not failed yet (04 R133, R143). -/
def declares (a : State) (d : Word) (n : Nat) : Bool := decide (n < 10) && bit d n && !tierFailed a n

/-- What counts for double loss once these tiers are declared: the failed tiers, and a rebuild that the loss of T9 ends (04 R135; 14 R389). -/
def afterDeclared (a : State) (d : Word) : State :=
  { (a.rgSet (rk 0x03 0x048) (a.rg (rk 0x03 0x048) ||| (d &&& 0x3FF#32))) with
    spr := if declares a d 9 ∧ a.spr.rebuild ≠ .idle then { a.spr with rebuild := .idle, front := 0, serves := false } else a.spr }

/-- A write of WAY_RETIRED adds the ways it names to those retired, unless fewer than four ways would stay in service, which is refused
`NACK_BUSY`; the ways that were in use are swept from then on, and nothing else changes where no entry lies in one (12 R344). A write of
TIER_FAIL declares failed each tier it names and no other: its power state is FAILED, its contents are lost, TIER_FAIL holds it with cause 1
and THL logs it; when two positions lack a tier then, the slice enters fail-stop of class DOUBLE_LOSS and answers nothing. Naming none that is
not failed yet changes nothing (04 R133, R135, R143; 16 R425). -/
def Obligations.RetiredWaysAndDeclaredTiers : Prop :=
  (∀ (s : State) (t : Nat) (p : CPacket),
     let q := writeOf p 0x05 0x054
     let a := atStage12 s t q
     let k := rk 0x05 0x054
     let old := a.rf k 8 0
     let new := old ||| fld (hData p.head) 8 0
     let used := (dirWays a).filter fun w => new.testBit w && !old.testBit w
     let a1 : State := { (a.rgFld k 8 0 new) with dir := { a.dir with sweep := a.dir.sweep ||| (used.map (2 ^ ·)).sum } }
     let c := sweepStep a1
     accepted s t q = true →
     (5 < popCount 9 new → ∃ b, exec (.dirWayRetire t p) s = .next b ∧ Done s t q nackBusy [] a b) ∧
     (popCount 9 new ≤ 5 → failed c = false → ∃ b, exec (.dirWayRetire t p) s = .next b ∧ Answered b q ok 0 (max s.now t + 8) ∧
       sameRegsBut [] c b ∧ b.dir = c.dir ∧ b.cch = c.cch ∧ b.thl = c.thl ∧ b.frm = c.frm) ∧
     (popCount 9 new ≤ 5 → (∀ e ∈ a.dir.ents, new.testBit (e.1 % 16) = false ∧ a.dir.sweep.testBit (e.1 % 16) = false) →
       (∀ e ∈ a.dir.txns, e.1 < 128) →
       ∃ b, exec (.dirWayRetire t p) s = .next b ∧ Done s t q ok [k] { a with dir := { a.dir with sweep := b.dir.sweep } } b ∧
         b.rf k 8 0 = new ∧ ∀ w, w < 9 → b.dir.sweep.testBit w = (a.dir.sweep.testBit w || used.contains w))) ∧
  (∀ (s : State) (t : Nat) (p : CPacket),
     let q := writeOf p 0x03 0x048
     let a := atStage12 s t q
     let d := hData p.head
     let k := rk 0x03 0x048
     let named := declares a d
     let lost := (lacking (afterDeclared a d)).length
     accepted s t q = true →
     ∃ b, exec (.tierFailWrite t p) s = .next b ∧ (∀ n, n < 10 → tierFailed b n = (tierFailed a n || bit d n)) ∧
       ((∀ n, named n = false) → Done s t q ok [] a b) ∧
       ((∃ n, named n = true) → b.rf k 19 16 = 1 ∧ named (b.rf k 23 20) = true ∧ (∀ n, named n = true → b.rf k 23 20 ≤ n) ∧
         b.rb (rk 0x03 0x010) 2 = true ∧ b.spr = (afterDeclared a d).spr ∧
         (∀ n, named n = true → n < a.pwr.tiers.length → (tier b n).st = .failed) ∧ (∀ n, named n = false → tier b n = tier a n) ∧
         b.pwr.queue = a.pwr.queue.filter (fun n => !named n) ∧
         b.thl.cells = a.thl.cells.filter (fun e => !named (e.1 / (16 * 1032 * 64))) ∧ b.rgn = a.rgn ∧ b.acc = a.acc ∧ b.upd = a.upd ∧
         b.cch = a.cch ∧ b.dir = a.dir) ∧
       ((∃ n, named n = true) → lost < 2 → b.frm = a.frm ∧ b.arb = a.arb ∧ b.thl.flights = a.thl.flights ∧ failed b = false ∧
         Written s t q ([k, rk 0x03 0x010, rk 0x03 0x018, rk 0x0A 0x010, rk 0x0A 0x018] ++ traceKeys) b) ∧
       ((∃ n, named n = true) → 2 ≤ lost → failed b = true ∧ b.rf (rk 0x09 0x054) 3 1 = 2 ∧ b.rb (rk 0x03 0x010) 3 = true ∧ b.fab.out = [] ∧
         b.fab.reqs = [] ∧ b.frm.state = .failed))

/-- KICK restarts the watchdog's count, RESTART takes the scrubber to line 0 of pass 0, a write of DOM_CFG stores it and restarts the domain's
leak timer, and BKT_CLR zeroes every bucket with its counts but for OVF (13 R356, R359, R365, R374). -/
def Obligations.RasControlsRestartTheirTimers : Prop :=
  ∀ (s : State) (t : Nat) (p : CPacket),
    (let q := actOf p 0x09 0x070 [1] []
     let a := atStage12 s t q
     accepted s t q = true → ∃ b, exec (.wdogKick t p) s = .next b ∧
       Done s t q ok [rk 0x09 0x070] { a with ras := { a.ras with wdogAt := max s.now t + 7, wdogHeld := b.ras.wdogHeld } } b ∧
       (∀ n, b.ras.wdogHeld = some n → n = 0) ∧ b.rb (rk 0x09 0x070) 0 = bit (hData p.head) 0) ∧
    (let q := actOf p 0x09 0x074 [1] []
     let a := atStage12 s t q
     accepted s t q = true → fld (hData p.head) 11 4 ≠ 0 → ∃ b, exec (.scrubRestart t p) s = .next b ∧
       Done s t q ok [rk 0x09 0x074, rk 0x09 0x078, rk 0x09 0x080] { a with ras := { a.ras with slowLogged := false } } b ∧ b.rf (rk 0x09 0x078) 19 0 = 0 ∧ b.rg (rk 0x09 0x080) = 0) ∧
    (∀ n, n < nDomains s.straps.build →
      let q := writeOf p 0x09 (0x100 + 8 * n)
      let a := atStage12 s t q
      accepted s t q = true → fld (hData p.head) 20 16 ≤ 24 → ∃ b, exec (.domCfgWrite t p n) s = .next b ∧
        Done s t q ok [rk 0x09 (0x100 + 8 * n), rk 0x09 (0x104 + 8 * n)] { a with ras := { a.ras with leakAt := b.ras.leakAt } } b ∧
        b.rg (rk 0x09 (0x100 + 8 * n)) = hData p.head &&& 0x1FFFFF#32 ∧ smGet b.ras.leakAt n = some (max s.now t + 7)) ∧
    (let q := actOf p 0x09 0x040 [1] []
     let a := atStage12 s t q
     accepted s t q = true → bit (hData p.head) 0 = false → ∃ b, exec (.bktClr t p) s = .next b ∧
       Done s t q ok ((List.range (nDomains s.straps.build)).map fun d => rk 0x09 (0x104 + 8 * d))
         { a with ras := { a.ras with leakAt := [], leakBase := max s.now t + 7 } } b ∧
       ∀ d, d < nDomains s.straps.build → b.rf (rk 0x09 (0x104 + 8 * d)) 30 0 = 0) ∧
    (let q := actOf p 0x09 0x040 [0] []
     let a := atStage12 s t q
     accepted s t q = true → bit (hData p.head) 1 = false → ∃ b, exec (.rasCntClr t p) s = .next b ∧
       Done s t q ok ((List.range 7).map fun i => rk 0x09 (0x090 + 4 * i)) a b ∧ ∀ i, i < 7 → b.rg (rk 0x09 (0x090 + 4 * i)) = 0)

/-- FORCE of a request with S = 1 takes a working slice to fail-stop of class FORCED: its engine FAILED, no frame running, its request
table and queues empty, its class recorded, FS_FORCED logged and a FAULT message on its way; with S = 0 it is answered `NACK_SEC` without effect (13 R369, R371). In debug mode a write of INJ arms the injection it
describes; outside it the write answers `NACK_PERM` (13 R373; 18 R474). -/
def Obligations.ForcedFailStopAndInjections : Prop :=
  (∀ (s : State) (t : Nat) (p : CPacket),
     let q := actOf p 0x09 0x050 [0] []
     let a := atStage12 s t q
     accepted s t q = true → hS q.head = true → failed a = false →
     ∃ b, exec (.fsForce t p) s = .next b ∧ Answered b q ok 0 (max s.now t + 8) ∧ b.ras.fsAt = some (max s.now t + 7) ∧
       b.frm.state = .failed ∧ b.frm.runs = false ∧ b.fab.reqs = [] ∧ b.arb.queue = [] ∧ b.thl.flights = [] ∧
       b.rb (rk 0x09 0x054) 0 = true ∧ b.rf (rk 0x09 0x054) 3 1 = 7 ∧ b.rb (rk 0x09 0x010) 10 = true ∧
       b.fab.sOut = [{ typ := 7, arg := s.straps.tile + 7 * 256, readyAt := max s.now t + 9 }]) ∧
  (∀ (s : State) (t : Nat) (p : CPacket),
     let q := actOf p 0x09 0x050 [0] []
     let a := atStage12 s t q
     accepted s t q = true → hS q.head = false → ∃ b, exec (.fsForce t p) s = .next b ∧ Done s t q nackSec [] a b) ∧
  (∀ (s : State) (t : Nat) (p : CPacket),
     let q := actOf p 0x09 0x08C [7] []
     let a := atStage12 s t q
     accepted s t q = true → fld (hData p.head) 5 0 < nDomains s.straps.build →
     ∃ b, exec (.injArm t p) s = .next b ∧
       if debugMode a then Done s t q ok [kInj] a b ∧ injArmed b (fld (hData p.head) 5 0) = true ∧ b.rb kInj 6 = bit (hData p.head) 6
       else Done s t q nackPerm [] a b)

/-! ### Power, resets, counters and debug -/

/-- Turning the ENG or SMC domain off starts its fall and turning it on its rise, of 32, 160 and 1,600 sclk; a domain that is switching,
groups that a held program uses, and a mailbox in use refuse it. The other domain's bit is written as it stands (16 R433, R434). -/
def Obligations.DomainsSwitchInTheirTimes : Prop :=
  ∀ (s : State) (t : Nat) (p : CPacket),
    let k := rk 0x0B 0x040
    (let q := actOf p 0x0B 0x040 [] [0]
     let a := atStage12 s t q
     accepted s t q = true → bit (hData p.head) 1 = a.rb k 1 → a.rb k 0 = true → a.pwr.eng = .on →
     ∃ b, exec (.engDomainOff t p) s = .next b ∧
       if groupsHeld a then Done s t q nackFrame [] a b
       else Done s t q ok [k] { a with pwr := { a.pwr with eng := .falling (max s.now t + 39) }, acc := { a.acc with ready := false } } b ∧
         b.rb k 0 = false) ∧
    (let q := actOf p 0x0B 0x040 [0] []
     let a := atStage12 s t q
     accepted s t q = true → bit (hData p.head) 1 = a.rb k 1 → a.rb k 0 = false → a.pwr.eng = .off →
     ∃ b, exec (.engDomainOn t p) s = .next b ∧
       Done s t q ok [k] { a with pwr := { a.pwr with eng := .rising (max s.now t + 167) } } b ∧ b.rb k 0 = true) ∧
    (let q := actOf p 0x0B 0x040 [] [1]
     let a := atStage12 s t q
     accepted s t q = true → bit (hData p.head) 0 = a.rb k 0 → a.rb k 1 = true → a.pwr.smc = .on →
     ∃ b, exec (.smcDomainOff t p) s = .next b ∧
       if mbxInUse a false || mbxInUse a true then Done s t q nackBusy [] a b
       else Answered b q ok 0 (max s.now t + 8) ∧ b.pwr.smc = .falling (max s.now t + 39) ∧ b.rb k 1 = false ∧ b.thl = a.thl) ∧
    (let q := actOf p 0x0B 0x040 [1] []
     let a := atStage12 s t q
     accepted s t q = true → bit (hData p.head) 0 = a.rb k 0 → a.rb k 1 = false → a.pwr.smc = .off →
     ∃ b, exec (.smcDomainOn t p) s = .next b ∧ Answered b q ok 0 (max s.now t + 8) ∧ b.pwr.smc = .rising (max s.now t + 1607) ∧
       b.rb k 1 = true ∧ b.thl = a.thl) ∧
    (let q := actOf p 0x0B 0x040 [] [0]
     let a := atStage12 s t q
     accepted s t q = true → a.rb k 0 = true → switching a.pwr.eng = true →
     ∃ b, exec (.engDomainOff t p) s = .next b ∧ Done s t q nackBusy [] a b)

/-- A wake command of one tier queues it when it is off or asleep; a sleep command, or an off command, which T9 alone takes, sends an AWAKE
tier into its entry; a tier that a plan names is refused `NACK_FRAME`, T9 in use `NACK_BUSY` (16 R428, R451). -/
def Obligations.TierCommandsMoveOneTier : Prop :=
  ∀ (s : State) (t : Nat) (p : CPacket) (n : Nat), n < 10 → fld (hData p.head) 9 0 = 2 ^ n →
    (let q := actOf p 0x0B 0x048 [12] [13]
     let a := atStage12 s t q
     accepted s t q = true → n < a.pwr.tiers.length → ((tier a n).st = .off ∨ (tier a n).st = .sleep) →
     ∃ b, exec (.tierWakeCmd t p) s = .next b ∧ Written s t q traceKeys b ∧ (tier b n).st = .queued ∧ (tier b n).asked = true ∧
       b.pwr.queue = a.pwr.queue ++ [n] ∧ (∀ m, m ≠ n → tier b m = tier a m) ∧ b.thl = a.thl) ∧
    (∀ r ∈ [(Instr.tierSleepCmd t p, actOf p 0x0B 0x048 [13] [12], false), (Instr.tierOffCmd t p, actOf p 0x0B 0x048 [12, 13] [], true)],
      let q := r.2.1
      let a := atStage12 s t q
      accepted s t q = true → (r.2.2 = true → n = 9) → n < a.pwr.tiers.length → (tier a n).st = .awake →
      ∃ b, exec r.1 s = .next b ∧
        if (planActive a).testBit n || (planPending a).testBit n then Done s t q nackFrame [] a b
        else if n = 9 ∧ t9Needed a = true then Done s t q nackBusy [] a b
        else Written s t q traceKeys b ∧ (tier b n).st = .entering ∧ (tier b n).start = max s.now t + 7 ∧ (tier b n).thenOff = r.2.2 ∧
          (∀ m, m ≠ n → tier b m = tier a m) ∧ b.thl = a.thl)

/-- ENTER of a request with S = 1 is refused with the first code of R435 that applies, and else changes nothing but for its `OK`, which
carries the order of retention; EXIT through LOGIC does nothing (16 R435-R437). A write of RST_CTL changes nothing but for its `OK`, which
carries the order of the reset: COLD before WARM, FRAME and SMC; the first two take a request with S = 1 (16 R441). -/
def Obligations.RetentionEntryAndResetOrders : Prop :=
  (∀ (s : State) (t : Nat) (p : CPacket), hS p.head = true →
     (let q := actOf p 0x0B 0x068 [0] [1]
      let a := atStage12 s t q
      accepted s t q = true →
      ∃ b, exec (.retainEnter t p) s = .next b ∧
        match retainCheck a (tableUsed a) with
        | some c => Done s t q c [] a b
        | none => Done s t q ok [] a b ∧ b.fab.out.getLast?.map (·.order) = some (some .retain)) ∧
     (let q := actOf p 0x0B 0x068 [1] [0]
      accepted s t q = true → ∃ b, exec (.retainExit t p) s = .next b ∧ Done s t q ok [] (atStage12 s t q) b)) ∧
  (∀ (s : State) (t : Nat) (p : CPacket),
     ∀ r ∈ [(Instr.rstCtlCold t p, actOf p 0x00 0x04C [0] [], ResetKind.cold), (Instr.rstCtlWarm t p, actOf p 0x00 0x04C [1] [0], .warm),
         (Instr.rstCtlFrame t p, actOf p 0x00 0x04C [2] [0, 1], .frame), (Instr.rstCtlSmc t p, actOf p 0x00 0x04C [3] [0, 1, 2], .smc)],
       let q := r.2.1
       accepted s t q = true → (r.2.2 = .cold ∨ r.2.2 = .warm → hS p.head = true) →
       ∃ b, exec r.1 s = .next b ∧ Done s t q ok [] (atStage12 s t q) b ∧ b.fab.out.getLast?.map (·.order) = some (some (.reset r.2.2)))

/-- CNT_CLR zeroes every counter; a count word of a counter that does not count can be written, one of a counter that counts answers
`NACK_BUSY`; a configuration with an allowed event is stored (18 R469). -/
def Obligations.CountersAreClearedWrittenConfigured : Prop :=
  ∀ (s : State) (t : Nat) (p : CPacket),
    (let q := actOf p 0x0F 0x040 [1] []
     let a := atStage12 s t q
     accepted s t q = true → ∃ b, exec (.pmuCntClr t p) s = .next b ∧ Answered b q ok 0 (max s.now t + 8) ∧
       (∀ n, n < 9 → pmuVal b n = 0) ∧ b.rb (rk 0x0F 0x040) 0 = bit (hData p.head) 0 ∧ b.thl = a.thl ∧ b.frm = a.frm) ∧
    (∀ n, n < 16 →
      let q := writeOf p 0x0F (cntWordOfs n)
      let a := atStage12 s t q
      let k := rk 0x0F (cntWordOfs n)
      accepted s t q = true → ∃ b, exec (.pmuCntWrite t p n) s = .next b ∧
        if a.rb (rk 0x0F (0x080 + 0x10 * (n / 2))) 8 then Done s t q nackBusy [] a b
        else Done s t q ok [k] a b ∧ b.rg k = if n % 2 = 0 then hData p.head else hData p.head &&& 0xFFFF#32) ∧
    (∀ n, n < 8 →
      let q := writeOf p 0x0F (0x080 + 0x10 * n)
      let a := atStage12 s t q
      accepted s t q = true → pmuEvents.contains (fld (hData p.head) 7 0) = true →
      ∃ b, exec (.pmuCfgWrite t p n) s = .next b ∧ Answered b q ok 0 (max s.now t + 8) ∧
        b.rf (rk 0x0F (0x080 + 0x10 * n)) 12 0 = fld (hData p.head) 12 0 ∧ b.thl = a.thl ∧ b.frm = a.frm)

/-- A debug request with S = 1 sets or clears debug mode, which a halt keeps; in debug mode HALT asks for a halt, RESUME ends a halt or its
request, and STEP lets a halted slice run one frame (18 R474, R475). -/
def Obligations.DebugModeHaltResumeStep : Prop :=
  ∀ (s : State) (t : Nat) (p : CPacket), hS p.head = true →
    (let q := actOf p 0x10 0x040 [] [1, 2, 3]
     let a := atStage12 s t q
     let on := bit (hData p.head) 0
     accepted s t q = true →
     ∃ b, exec (.dbgModeWrite t p) s = .next b ∧
       if on = false ∧ (a.obs.halted || a.obs.haltPend) = true then Done s t q nackBusy [] a b
       else if on = debugMode a then Done s t q ok [] a b
       else Written s t q (rk 0x10 0x040 :: traceKeys) b ∧ debugMode b = on ∧ b.thl = a.thl ∧ b.frm = a.frm) ∧
    (let q := actOf p 0x10 0x040 [1] [2, 3]
     let a := atStage12 s t q
     accepted s t q = true → debugMode a = true → bit (hData p.head) 0 = true →
     ∃ b, exec (.dbgHalt t p) s = .next b ∧
       Done s t q ok [] (if a.obs.halted then a else { a with obs := { a.obs with haltPend := true } }) b) ∧
    (let q := actOf p 0x10 0x040 [2] [1, 3]
     let a := atStage12 s t q
     accepted s t q = true → debugMode a = true → bit (hData p.head) 0 = true →
     ∃ b, exec (.dbgResume t p) s = .next b ∧
       if a.obs.halted then Written s t q traceKeys b ∧ b.obs.halted = false ∧ b.obs.haltPend = false ∧ b.thl = a.thl ∧ b.frm = a.frm
       else Done s t q ok [] { a with obs := { a.obs with haltPend := false, stepping := false } } b) ∧
    (let q := actOf p 0x10 0x040 [3] [1, 2]
     let a := atStage12 s t q
     accepted s t q = true → debugMode a = true → bit (hData p.head) 0 = true →
     ∃ b, exec (.dbgStep t p) s = .next b ∧
       if a.obs.halted then Written s t q traceKeys b ∧ b.obs.halted = false ∧ b.obs.haltPend = true ∧ b.obs.stepping = true ∧ b.thl = a.thl ∧ b.frm = a.frm
       else Done s t q ok [] a b)

/-- TRC_CTL.CLR empties the trace buffer and its count of losses; a write of SELn with an allowed value stores it, and one that changes it
holds its line for two sclk (18 R480, R487). -/
def Obligations.TraceClearsAndEventSelections : Prop :=
  ∀ (s : State) (t : Nat) (p : CPacket),
    (let q := actOf p 0x10 0x04C [2] []
     let a := atStage12 s t q
     accepted s t q = true → ∃ b, exec (.trcClr t p) s = .next b ∧
       Done s t q ok [rk 0x10 0x04C, rk 0x10 0x05C] { a with obs := { a.obs with trc := [], trcCount := 0, trcWr := 0, trcFull := false } } b ∧
       b.rg (rk 0x10 0x05C) = 0) ∧
    ∀ n, n < 16 →
      let q := writeOf p 0x11 (0x050 + 4 * n)
      let a := atStage12 s t q
      let v := hData p.head &&& 0xFFFF#32
      let held := smPut a.obs.lines n { smGetD a.obs.lines n EvLine.rest with wr := some (max s.now t + 7) }
      accepted s t q = true → selOk (hData p.head) = true →
      ∃ b, exec (.evtSelWrite t p n) s = .next b ∧ b.rg (kSel n) = v ∧
        if a.rg (kSel n) = v then Done s t q ok [] a b
        else Done s t q ok [kSel n] { a with obs := { a.obs with lines := held } } b

/-! ### Register reads, and writes without rules of their own -/

/-- Pages whose block registers all read without an effect. -/
def lookPages : List Nat := [0x00, 0x03, 0x06, 0x08, 0x0B, 0x0E, 0x11]

/-- Registers whose writes store and clear bits and do nothing else. -/
def plainRegs : List (Nat × Nat) :=
  [(0x01, 0x040), (0x01, 0x05C), (0x02, 0x044), (0x02, 0x048), (0x03, 0x04C), (0x04, 0x04C), (0x04, 0x050), (0x04, 0x054), (0x04, 0x058),
   (0x04, 0x060), (0x04, 0x088), (0x05, 0x074), (0x06, 0x048), (0x07, 0x04C), (0x07, 0x050), (0x07, 0x054),
   (0x07, 0x070), (0x09, 0x04C), (0x09, 0x084), (0x0A, 0x048), (0x0A, 0x064),
   (0x0B, 0x058), (0x10, 0x050), (0x10, 0x058), (0x11, 0x044)]

/-- Limits of timers and of wakes: a write besides leaves the earlier value to those that have started. -/
def limitRegs : List (Nat × Nat) := [(0x05, 0x04C), (0x05, 0x050), (0x09, 0x064), (0x09, 0x068), (0x09, 0x06C), (0x0B, 0x050), (0x0B, 0x054)]

/-- The earlier limits after limit register k takes the value v at stage 12 of a request whose header came at `t`: its response leaves at
t + 8. -/
def limitsAfter (a : State) (k t v : Nat) : List (Nat × Nat × Nat) :=
  if v = a.rf k 23 0 then a.ras.limits else a.ras.limits ++ [(k, t + 8, a.rf k 23 0)]

/-- A register read of a header register, or of any register of a page that only looks, returns its word and changes nothing; a write of a
plain register whose value is allowed changes that register alone, and one of a value that is not answers `NACK_RSVD`; a new limit applies to
timers and wakes that start after the response of its write leaves, and a write of PATROL_CTL that changes EN or INTERVAL starts the patrol's
interval again (00 R9, R12, R13; 12 R345; 13 R360, R362; 16 R450; the PATROL_CTL clause is the model's choice, notes/assumptions/61.md). -/
def Obligations.PlainRegistersReadAndWrite : Prop :=
  ∀ (s : State) (t : Nat) (p : CPacket),
    (let q := withOp p 0x30
     let a := atStage12 s t q
     accepted s t q = true → (rPage p.head ∈ lookPages ∨ rOfs p.head < 0x040 ∧ rPage p.head ≠ 0x0C ∧ rPage p.head ≠ 0x0D) →
     ∃ b, exec (.regRd t p) s = .next b ∧ ReadOut s t q (viewWord a (rPage p.head) (rOfs p.head)) 8 [] a b) ∧
    (let q := withOp p 0x31
     let a := atStage12 s t q
     let k := rk (rPage p.head) (rOfs p.head)
     accepted s t q = true → (rPage p.head, rOfs p.head) ∈ plainRegs →
     ∃ b, exec (.regWr t p) s = .next b ∧
       if valueOk s.straps.build (rPage p.head) (rOfs p.head) (hData p.head) then
         Done s t q ok [k] a b ∧ b.rg k = (storeWord a (rPage p.head) (rOfs p.head) (hData p.head)).rg k
       else Done s t q nackRsvd [] a b) ∧
    (let q := withOp p 0x31
     let a := atStage12 s t q
     let k := rk (rPage p.head) (rOfs p.head)
     accepted s t q = true → (rPage p.head, rOfs p.head) ∈ limitRegs →
     ∃ b, exec (.regWr t p) s = .next b ∧
       if valueOk s.straps.build (rPage p.head) (rOfs p.head) (hData p.head) then
         let v := (storeWord a (rPage p.head) (rOfs p.head) (hData p.head)).rf k 23 0
         let u := { a with ras := { a.ras with limits := limitsAfter a k (max s.now t) v } }
         Done s t q ok [k] u b ∧ b.rg k = (storeWord a (rPage p.head) (rOfs p.head) (hData p.head)).rg k ∧
           (∀ n, max s.now t + 8 < n → (∀ e ∈ a.ras.limits, e.2.1 < n) → limitAt b k n = v) ∧
           limitAt b k (max s.now t) = limitAt a k (max s.now t)
       else Done s t q nackRsvd [] a b) ∧
    (let q := withOp p 0x31
     let a := atStage12 s t q
     let k := rk 0x09 0x088
     accepted s t q = true → rPage p.head = 0x09 → rOfs p.head = 0x088 → valueOk s.straps.build 0x09 0x088 (hData p.head) = true →
     ∃ b, exec (.regWr t p) s = .next b ∧ b.rg k = (storeWord a 0x09 0x088 (hData p.head)).rg k ∧
       Done s t q ok [k] (if b.rf k 8 0 = a.rf k 8 0 then a else { a with ras := { a.ras with patrolAt := max s.now t + 7 } }) b)

/-- The read of the low word of a counter returns it as it stands at the end of the sclk and holds the high word for the next read of that (00
R11; 18 R465). Debug reads answer `NACK_PERM` outside debug mode. In it, and without an error in the words read, the first word of a lane, a
tag, a directory entry or a trace record is returned and the rest held, a lane's in a slot its bank has free, for which the read else waits; the
read of TRC_DATA3 returns the last word held and moves the offset
on, past the record but no further than the count (08 R251; 11 R318; 12 R345; 18 R474, R481). -/
def Obligations.ReadsThatHoldTheRest : Prop :=
  (∀ (s : State) (t : Nat) (p : CPacket) (n : Nat), n < 9 →
     let q := readOf p 0x0F (wideLowOfs n)
     let a := atStage12 s t q
     accepted s t q = true →
     ∃ b, exec (.wideLowRead t p n) s = .next b ∧
       ReadOut s t q ((pmuAt a).rg (pmuLo n)) 8 [] { a with obs := { a.obs with hold := smPut a.obs.hold (pmuLo n) ((pmuAt a).rg (pmuHi n)) } } b) ∧
  (∀ (s : State) (t : Nat) (p : CPacket),
     (∀ r ∈ [(Instr.accDbgRead t p, 0x07, 0x074), (Instr.cchDbgRead t p, 0x04, 0x08C), (Instr.dirDbgRead t p, 0x05, 0x078),
         (Instr.trcData0Read t p, 0x10, 0x060), (Instr.trcData3Read t p, 0x10, 0x06C)],
       let q := readOf p r.2.1 r.2.2
       accepted s t q = true → debugMode (atStage12 s t q) = false →
       ∃ b, exec r.1 s = .next b ∧ Done s t q nackPerm [] (atStage12 s t q) b) ∧
     (let q := readOf p 0x07 0x074
      let a := atStage12 s t q
      let x := laneImage a (a.rf (rk 0x07 0x070) 13 0)
      accepted s t q = true → debugMode a = true → (∀ x ∈ a.ras.upsets, x.1 ≠ 15) → viewFree a (max s.now t + 7) = true →
      ∃ b, exec (.accDbgRead t p) s = .next b ∧ ReadOut s t q (x.extractLsb' 0 32) 8 []
        { a with acc := { a.acc with dbgHold := some (x.extractLsb' 32 32, x.extractLsb' 64 32, x.extractLsb' 96 32) } } b) ∧
     (let q := readOf p 0x07 0x074
      let a := atStage12 s t q
      ∀ k, accepted s t q = true → debugMode a = true → viewFree a (max s.now t + 7) = false → freeSlot a = some k →
      let r : Req := { head := q.head, payload := [], vc := q.vc.toNat, arrived := max s.now t, progress := max s.now t + 7, phase := .laneRead }
      ∃ b, exec (.accDbgRead t p) s = .next b ∧ sameRegsBut [] a b ∧ sameUnits a b ∧ b.fab = { a.fab with reqs := smPut a.fab.reqs k r }) ∧
     (let q := readOf p 0x04 0x08C
      let a := atStage12 s t q
      let w := dbgWay a
      accepted s t q = true → debugMode a = true → (∀ x ∈ a.ras.upsets, x.1 ≠ 13) →
      ∃ b, exec (.cchDbgRead t p) s = .next b ∧ ReadOut s t q ((tagWord w).extractLsb' 0 32) 8 []
        { a with cch := { a.cch with dbgHold := some (setFld ((tagWord w).extractLsb' 32 32) 12 12 (b2n w.mru)) } } b) ∧
     (let q := readOf p 0x05 0x078
      let a := atStage12 s t q
      accepted s t q = true → debugMode a = true → (∀ x ∈ a.ras.upsets, x.1 ≠ 14) →
      ∀ e, smGet a.dir.ents (a.rf (rk 0x05 0x074) 8 0 * 16 + a.rf (rk 0x05 0x074) 15 12) = some e →
      let d := dirState e (lineBusy a e.space e.x)
      ∃ b, exec (.dirDbgRead t p) s = .next b ∧ ReadOut s t q ((dirTag e).extractLsb' 0 32) 8 [] { a with dir := { a.dir with
        dbgHold := some (((dirTag e).extractLsb' 32 16).setWidth 32, d.extractLsb' 0 32, d.extractLsb' 32 32) } } b) ∧
     (let q := readOf p 0x10 0x060
      let a := atStage12 s t q
      let r := if a.obs.trcCount ≤ a.rf (rk 0x10 0x058) 10 0 then 0 else smGetD a.obs.trc (trcSlot a) 0
      accepted s t q = true → debugMode a = true → (∀ x ∈ a.ras.upsets, x.1 ≠ 18) →
      ∃ b, exec (.trcData0Read t p) s = .next b ∧
        ReadOut s t q (r.extractLsb' 0 32) 8 [] { a with obs := { a.obs with trcHold := some (r.extractLsb' 32 96) } } b) ∧
     (let q := readOf p 0x10 0x06C
      let a := atStage12 s t q
      let n := a.rf (rk 0x10 0x058) 10 0
      accepted s t q = true → debugMode a = true → ∀ h, a.obs.trcHold = some h →
      ∃ b, exec (.trcData3Read t p) s = .next b ∧ ReadOut s t q (h.extractLsb' 64 32) 8 [rk 0x10 0x058] a b ∧
        b.rg (rk 0x10 0x058) = BitVec.ofNat 32 (min (n + 1) (max a.obs.trcCount n))))

/-! ### Mailboxes and the SMC -/

/-- The source may use the channel: it is not in locked mode, or the source owns its lock (15 R407). -/
def mayUse (s : State) (secure : Bool) (src : Nat × Nat × Nat) : Bool := !mbxLocked s secure || ownsLock (mbx s secure) src

/-- A ring sets the channel's doorbell and powers the SMC domain up when it is off; a write of MODE to a channel in use is refused; either
answers nine sclk after its header, a refusal eight (15 R398, R403, R411; 16 R434). -/
def Obligations.DoorbellsAndMailboxModes : Prop :=
  ∀ (s : State) (t : Nat) (p : CPacket) (secure : Bool),
    (let q := actOf p (mbxPage secure) 0x040 [0] []
     let a := atStage12 s t q
     accepted s t q = true → ∃ b, exec (.doorbellRing t p secure) s = .next b ∧ Answered b q ok 0 (max s.now t + 9) ∧
       mbx b secure = { mbx a secure with ring := true, lock := (mbx b secure).lock } ∧ mbx b (!secure) = mbx a (!secure) ∧
       b.pwr.smc = (if a.pwr.smc = .off then .rising (max s.now t + 1607) else a.pwr.smc) ∧ b.thl = a.thl ∧ b.frm = a.frm) ∧
    (let q := writeOf p (mbxPage secure) 0x044
     let a := atStage12 s t q
     let k := rk (mbxPage secure) 0x044
     accepted s t q = true → ∃ b, exec (.mbxCtlWrite t p secure) s = .next b ∧
       if mbxCtlBusy a secure (hData p.head) then Answered b q nackBusy 0 (max s.now t + 8) ∧ b.rg k = a.rg k
       else Answered b q ok 0 (max s.now t + 9) ∧ b.rg k = (storeWord a (mbxPage secure) 0x044 (hData p.head)).rg k)

/-- A write of IN_DATA by a source that may use the channel begins a message with its header word, whose lengths it checks, or adds the next
word; the word that completes the message makes it visible to the SMC. A source that may not, or that meets another's partial message, is
answered `NACK_BUSY` and changes nothing but a lock's time (15 R400, R401, R407). -/
def Obligations.InboundWordsBuildMessages : Prop :=
  ∀ (s : State) (t : Nat) (p : CPacket) (secure : Bool),
    let q := writeOf p (mbxPage secure) 0x058
    let a := atStage12 s t q
    let c := mbx a secure
    let d := hData p.head
    let src := hSrc p.head
    accepted s t q = true →
    ∃ b, exec (.inDataWrite t p secure) s = .next b ∧
      let lk := (mbx b secure).lock
      match c.inPart with
      | none =>
        if mayUse a secure src = false then Answered b q nackBusy 0 (max s.now t + 8) ∧ mbx b secure = { c with lock := lk }
        else if fld d 15 11 ≠ 0 then
          Answered b q nackRsvd 0 (max s.now t + 8) ∧ mbx b secure = { c with lock := lk } ∧ b.rb (rk (mbxPage secure) 0x010) 0 = true
        else if inFree c < fld d 10 8 + 1 then Answered b q nackFull 0 (max s.now t + 8) ∧ mbx b secure = { c with lock := lk }
        else
          let m : MbxMsg := { words := [(c.inWr, d)], src := src, total := fld d 10 8 + 1, bad := false, replied := false }
          Answered b q ok 0 (max s.now t + 9) ∧ mbx b secure = if m.total = 1
            then { c with inWr := (c.inWr + 1) % 8, inPart := none, inMsgs := c.inMsgs ++ [m], inLast := fld d 7 0, lock := lk }
            else { c with inWr := (c.inWr + 1) % 8, inPart := some m, lock := lk }
      | some m0 =>
        if m0.src ≠ src ∨ mayUse a secure src = false then Answered b q nackBusy 0 (max s.now t + 8) ∧ mbx b secure = { c with lock := lk }
        else
          let m : MbxMsg := { m0 with words := m0.words ++ [(c.inWr, d)] }
          Answered b q ok 0 (max s.now t + 9) ∧ mbx b secure = if m.words.length = m.total
            then { c with inWr := (c.inWr + 1) % 8, inPart := none, inMsgs := c.inMsgs ++ [m], inLast := fld (mbxHead m) 7 0, lock := lk }
            else { c with inWr := (c.inWr + 1) % 8, inPart := some m, lock := lk }

/-- A read of OUT_DATA takes the next word of the oldest outbound message, ten sclk after its header; the last word leaves its SEQ to be
acknowledged; with no word, or for a source that may not use the channel, it answers `NACK_BUSY`. OUT_ACK acknowledges that SEQ, and
of a source that may not use the channel answers `NACK_BUSY`. The word read is free of errors here (15 R402-R404, R407). -/
def Obligations.OutboundWordsAreReadAndAcknowledged : Prop :=
  ∀ (s : State) (t : Nat) (p : CPacket) (secure : Bool),
    (let q := readOf p (mbxPage secure) 0x05C
     let a := atStage12 s t q
     let c := mbx a secure
     accepted s t q = true → (∀ x ∈ a.ras.upsets, x.1 ≠ 19) →
     ∃ b, exec (.outDataRead t p secure) s = .next b ∧
       let lk := (mbx b secure).lock
       if mayUse a secure (hSrc p.head) = false ∨ c.outMsgs = [] then
         Answered b q nackBusy 0 (max s.now t + 8) ∧ mbx b secure = { c with lock := lk }
       else ∀ m rest pl w ws, c.outMsgs = m :: rest → m.words = (pl, w) :: ws →
         Answered b q ok w.toNat (max s.now t + 10) ∧ mbx b secure = if ws = [] then { c with outMsgs := rest, unacked := some m.src.1, lock := lk }
           else { c with outMsgs := { m with words := ws } :: rest, lock := lk }) ∧
    (let q := actOf p (mbxPage secure) 0x060 [0] [1]
     let a := atStage12 s t q
     let c := mbx a secure
     accepted s t q = true →
     ∃ b, exec (.outAck t p secure) s = .next b ∧ (if mayUse a secure (hSrc p.head) then Answered b q ok 0 (max s.now t + 9) else Answered b q nackBusy 0 (max s.now t + 8)) ∧
       let lk := (mbx b secure).lock
       mbx b secure = match c.unacked with
         | some n => if mayUse a secure (hSrc p.head) then { c with unacked := none, outAcked := n, lock := lk } else { c with lock := lk }
         | none => { c with lock := lk })

/-- IN_ABORT discards the partial inbound message of its source, or of any source for ring 0, frees the space it held and logs it; another's
is left, with `NACK_PERM`. Reading LOCK takes a free lock of a channel in locked mode, answering 0, and else names its owner; writing it by the owner
releases it (15 R408-R410). -/
def Obligations.AbortsAndLocks : Prop :=
  ∀ (s : State) (t : Nat) (p : CPacket) (secure : Bool),
    (let q := actOf p (mbxPage secure) 0x060 [1] [0]
     let a := atStage12 s t q
     accepted s t q = true →
     ∃ b, exec (.inAbort t p secure) s = .next b ∧
       let c := mbx a secure
       let lk := (mbx b secure).lock
       match c.inPart with
       | none => Answered b q ok 0 (max s.now t + 9) ∧ mbx b secure = { c with lock := lk }
       | some m =>
         if m.src = hSrc p.head ∨ hRing p.head = 0 then
           Answered b q ok 0 (max s.now t + 9) ∧ mbx b secure = { c with inPart := none, lock := lk } ∧
             inFree (mbx b secure) = 8 - (c.inMsgs.map fun m => m.words.length).sum ∧ b.rb (rk (mbxPage secure) 0x010) 3 = true
         else Answered b q nackPerm 0 (max s.now t + 8) ∧ mbx b secure = { c with lock := lk }) ∧
    (let q := readOf p (mbxPage secure) 0x04C
     let a := atStage12 s t q
     let me := ownerNum (hSrc p.head)
     accepted s t q = true →
     ∃ b, exec (.lockRead t p secure) s = .next b ∧
       if mbxLocked a secure = false then Answered b q ok 0 (max s.now t + 9)
       else match (mbx a secure).lock with
         | none => Answered b q ok 0 (max s.now t + 9) ∧ mbx b secure = { mbx a secure with lock := some (me, max s.now t + 7) }
         | some (o, at_) => Answered b q ok (if o = me then 0 else o % 2 ^ 32) (max s.now t + 9) ∧
             mbx b secure = { mbx a secure with lock := some (o, if o = me then max s.now t + 7 else at_) }) ∧
    (let q := writeOf p (mbxPage secure) 0x04C
     let a := atStage12 s t q
     accepted s t q = true →
     ∃ b, exec (.lockWrite t p secure) s = .next b ∧ Answered b q ok 0 (max s.now t + 9) ∧
       if mbxLocked a secure = false then sameRegsBut [] a b
       else if ownsLock (mbx a secure) (hSrc p.head) then (mbx b secure).lock = none
       else mbx b secure = mbx a secure ∧ b.rb (rk (mbxPage secure) 0x010) 2 = true)

/-! ### Requests for memory, and requests that are refused -/

/-- What a command that began in `s` leaves of `b`: the queue and the straps are not its business, and the clock shows its sclk. -/
def ended (s : State) (t : Nat) (b : State) : State := { b with pending := s.pending, straps := s.straps, now := max s.now t }

/-- Every register of these pages is as it was. -/
def samePages (pages : List Nat) (a b : State) : Prop := ∀ pg ∈ pages, ∀ ofs, ofs < 4096 → b.rg (rk pg ofs) = a.rg (rk pg ofs)

/-- Pages that neither the home's counters nor a record of an event touches: not CCH, DIR, RAS, PWR, PMU and DBG. -/
def calmPages : List Nat := [0x00, 0x01, 0x02, 0x03, 0x06, 0x07, 0x08, 0x0A, 0x0C, 0x0D, 0x0E, 0x11]

/-- No stored word and no engine is in error and no injection is armed. -/
def wordsSound (s : State) : Prop := s.ras.upsets = [] ∧ s.ras.engUpsets = [] ∧ s.rb kInj 7 = false

/-- Besides, the slice has not failed and no quench is in force. -/
def attends (s : State) : Prop := wordsSound s ∧ failed s = false ∧ quenched s = false

/-- The entry of an accepted request in the request table; it stood at stage 12 seven sclk after its header, and keeps the region of its check
(02 R48, R66; 03 R105). -/
def entryAt (s : State) (t : Nat) (q : CPacket) (ph : Phase) : Req :=
  { head := q.head, payload := q.payload, vc := q.vc.toNat, arrived := max s.now t, progress := max s.now t + 7, phase := ph, rgn := regionOf s t q }

/-- `a` with the request in entry `k`. -/
def entered (s : State) (t : Nat) (q : CPacket) (ph : Phase) (k : Nat) (a : State) : State :=
  { a with fab := { a.fab with reqs := smPut a.fab.reqs k (entryAt s t q ph) } }

/-- `a` with a burst offered to the arbiter from sclk `since` on; its line has the twin that region `rg` gives it (03 R105; 04 R138). -/
def offered (kind : BKind) (rid line : Nat) (rg : Option Region) (reads writes : Bool) (since : Nat) (a : State) : State :=
  { a with arb := { a.arb with queue := a.arb.queue ++
      [{ rid := rid, kind := kind, line := line, reads := reads, writes := writes, since := since, twin := regionTwin rg line }] } }

/-- A request is answered `code` with `RSP_COMP` some sclk after its header; the registers are as stage 12 found them, the units are those of
`u`, and the ports have the answer more. -/
def DoneAt (s : State) (t : Nat) (q : CPacket) (code at_ : Nat) (u b : State) : Prop :=
  Answered b q code 0 (max s.now t + at_) ∧ sameRegsBut [] (atStage12 s t q) b ∧ sameUnits u b ∧ samePorts (atStage12 s t q) b ∧
    b.now = max s.now t ∧ b.pending = s.pending

/-- The packet last put on the output queue is `RSP_COMP` to the request of a table entry, with this code (02 R51, R57, R62). -/
def AnsweredReq (s : State) (r : Req) (code at_ : Nat) : Prop :=
  ∃ o, s.fab.out.getLast? = some o ∧ o.vc = (if r.vc = 4 then 4 else 2) ∧ o.payload = [] ∧ o.readyAt = at_ ∧ hOpcode o.head = 0x50 ∧
    hResp o.head = code ∧ hTxn o.head = hTxn r.head ∧ hDst o.head = hSrc r.head

/-- The packet last put on the output queue is `DAT_COMP` with this code and these data flits, addressed to the requester with its TXN (02
R51, R57). -/
def AnsweredData (s : State) (h : BitVec 256) (code : Nat) (data : List CData) (at_ : Nat) : Prop :=
  ∃ o, s.fab.out.getLast? = some o ∧ o.vc = 3 ∧ o.payload = data ∧ o.readyAt = at_ ∧ hOpcode o.head = 0x51 ∧ hResp o.head = code ∧
    hTxn o.head = hTxn h ∧ hDst o.head = hSrc h

/-- The rows that name a kind of request by its opcode alone, each with the packet it stands for. -/
def requestRows (t : Nat) (p : CPacket) : List (Instr × CPacket) :=
  [(.nop t p, nopOf p), (.rd t p, withOp p 0x01), (.rdShared t p, withOp p 0x02), (.rdUnique t p, withOp p 0x03),
   (.rdNoalloc t p, withOp p 0x04), (.wr t p, withOp p 0x05), (.wrLine t p, withOp p 0x06), (.wbDirty t p, withOp p 0x07),
   (.wbClean t p, withOp p 0x08), (.atSwap t p, withOp p 0x10), (.atCas t p, withOp p 0x11), (.atAddI t p, withOp p 0x12),
   (.atAddF32 t p, withOp p 0x13), (.atAddBf16x2 t p, withOp p 0x14), (.atMinI t p, withOp p 0x15), (.atMaxI t p, withOp p 0x16),
   (.atMinF t p, withOp p 0x17), (.atMaxF t p, withOp p 0x18), (.atAnd t p, withOp p 0x19), (.atOr t p, withOp p 0x1A),
   (.atXor t p, withOp p 0x1B), (.atIncBound t p, withOp p 0x1C), (.atVaddF32 t p, withOp p 0x1D), (.atVacc t p, withOp p 0x1E),
   (.mtCleanPa t p, withOp p 0x20), (.mtInvPa t p, withOp p 0x21), (.mtClinvPa t p, withOp p 0x22), (.mtCleanSw t p, withOp p 0x23),
   (.mtInvSw t p, withOp p 0x24), (.mtClinvSw t p, withOp p 0x25), (.mtZeroPa t p, withOp p 0x26),
   (.stPull t p, withBits (withOp p 0x28) [] [56]), (.stPullAbort t p, withBits (withOp p 0x28) [56] []), (.stPush t p, withOp p 0x29),
   (.regRd t p, withOp p 0x30), (.regWr t p, withOp p 0x31), (.intReceived t p, withOp p 0x38), (.evtReceived t p, withOp p 0x39)]

/-- A `NOP` that passes the check stages is answered `OK` eight sclk after its header and does nothing else; an INT or EVT that reaches the
slice is answered `NACK_UNSUP` and logged; and a request that a check stage refuses is answered with the code of the first that does, at that
stage's time, and goes no further (02 R65, R66, R76). -/
def Obligations.ChecksAnswerInTheirOrder : Prop :=
  ∀ (s : State) (t : Nat) (p : CPacket),
    (let q := nopOf p
     accepted s t q = true → hOpcode q.head = 0 →
     ∃ b, exec (.nop t p) s = .next b ∧ Done s t q ok [] (atStage12 s t q) b) ∧
    (∀ r ∈ [(Instr.intReceived t p, 0x38), (Instr.evtReceived t p, 0x39)],
      let q := withOp p r.2
      heard s t q = true → onRequest q = true →
      ∃ b, exec r.1 s = .next b ∧ Answered b q nackUnsup 0 (max s.now t + 5) ∧ b.rb (rk 0x00 0x010) 0 = true ∧
        b.fab.reqs = (dueBy (counted s t q) (max s.now t)).fab.reqs) ∧
    (∀ r ∈ requestRows t p, ∀ n, heard s t r.2 = true → onRequest r.2 = true → refusal s t r.2 = some n →
      let x := dueBy (counted s t r.2) (max s.now t + n.at_)
      ∃ b, exec r.1 s = .next b ∧ Answered b r.2 n.code 0 (max s.now t + n.delay) ∧ b.fab.reqs = x.fab.reqs ∧ b.thl = x.thl ∧
        b.frm = x.frm ∧ b.acc = x.acc ∧ b.upd = x.upd ∧ b.cch = x.cch ∧ b.dec = x.dec ∧ b.pwr.tiers = x.pwr.tiers)

/-- A fused-off slice answers register accesses `OK` with the word 0 and every other request `NACK_RANGE`. The shell of a slice without LOGIC
reads its registers, orders resets and takes RETAIN.EXIT, and answers every other request `NACK_PWR`; either gives its answers one at a time,
each at the earliest eight sclk after its header, and changes nothing else (00 R17; 16 R423, R435, R441). -/
def Obligations.ShellAnswersWithoutLogic : Prop :=
  ∀ (s : State) (t : Nat) (p : CPacket),
    (let a := atInput s t p
     let h := p.head
     let at_ := max (max s.now t + 8) a.fab.shellFree
     let one := fun (b : State) (code param : Nat) => Answered b p code param at_ ∧ b.fab.shellFree = at_ + 1 ∧ b.fab.reqs = a.fab.reqs ∧
       sameRegsBut [] a b ∧ sameUnits a b
     onRequest p = true → sound p = true → inReset (advance s t) = false →
     (s.straps.fused = true → ∃ b, exec (.fusedOffRequest t p) s = .next b ∧
       one b (if hOpcode h = 0x30 ∨ hOpcode h = 0x31 then ok else nackRange) 0) ∧
     (s.straps.fused = false → shellServes (advance s t) = true →
       (hOpcode h = 0x30 → hSpace h = 2 → shellRead (rPage h) (rOfs h) = true → checkReg a h = none →
         ∃ b, exec (.shellRequest t p) s = .next b ∧ one b ok (viewWord a (rPage h) (rOfs h)).toNat) ∧
       ((hOpcode h ≠ 0x30 ∧ hOpcode h ≠ 0x31 ∨ hSpace h ≠ 2) → ∃ b, exec (.shellRequest t p) s = .next b ∧ one b nackPwr 0))) ∧
    (∀ r ∈ [(Instr.shellRequest t p, p), (Instr.retainExit t p, actOf p 0x0B 0x068 [1] [0]), (Instr.rstCtlCold t p, actOf p 0x00 0x04C [0] []),
        (Instr.rstCtlWarm t p, actOf p 0x00 0x04C [1] [0])],
      let q := r.2
      let h := q.head
      let a := atInput s t q
      let at_ := max (max s.now t + 8) a.fab.shellFree
      onRequest q = true → sound q = true → inReset (advance s t) = false → s.straps.fused = false → shellServes (advance s t) = true →
      hOpcode h = 0x31 → hSpace h = 2 → shellWrite (rPage h) (rOfs h) (hData h) = true → checkReg a h = none →
      badValue s.straps.build (rPage h) (rOfs h) (hData h) = false → (needsS (rPage h) (rOfs h) (hData h) = true → hS h = true) →
      ∃ b, exec r.1 s = .next b ∧ Answered b q ok 0 at_ ∧ b.fab.shellFree = at_ + 1 ∧ b.fab.reqs = a.fab.reqs ∧ sameRegsBut [] a b ∧
        b.fab.out.getLast?.map (·.order) = some (if rPage h = 0 then (rstKind (hData h)).map .reset else none) ∧
        if rPage h ≠ 0 ∧ bit (hData h) 1 = true ∧ a.pwr.retained = true ∧ a.pwr.logicUp = none
        then sameUnits { a with pwr := { a.pwr with logicUp := some (max s.now t + 320, 5) } } b else sameUnits a b)

/-- A read or write of an uncached line, and a push, wait in the request table for their burst: it is offered to the arbiter of the thallus
eight sclk after the header, under the requester's number, and nothing else changes (02 R48; 06 R201; 17 R453, R457). -/
def Obligations.UncachedAccessesWaitForTheirGrant : Prop :=
  ∀ (s : State) (t : Nat) (p : CPacket) (k : Nat),
    (let q := withOp p 0x01
     let a := atStage12 s t q
     accepted s t q = true → attends a → freeSlot a = some k → atHome (regionOf s t q) q.head = false →
     exec (.rd t p) s = .next (ended s t
       (offered (.snapRead k) 1 (hOffset q.head / 128) (regionOf s t q) true false (max s.now t + 8) (entered s t q .thallus k a)))) ∧
    (∀ r ∈ [(Instr.wr t p, 0x05), (Instr.wrLine t p, 0x06)],
      let q := withOp p r.2
      let a := atStage12 s t q
      let x := hOffset q.head / 128
      let rg := regionOf s t q
      accepted s t q = true → attends a → freeSlot a = some k → atHome rg q.head = false →
      exec r.1 s = .next (ended s t
        (offered (.uncWrite k) 1 x rg (hSize q.head != 7 || (regionTwin rg x).isSome) true (max s.now t + 8) (entered s t q .thallus k a)))) ∧
    (let q := withOp p 0x29
     let a := atStage12 s t q
     let x := hOffset q.head / 128
     let rg := regionOf s t q
     accepted s t q = true → attends a → freeSlot a = some k →
     exec (.stPush t p) s = .next (ended s t
       (offered (.push k) 5 x rg (regionTwin rg x).isSome true (max s.now t + 8) (entered s t q .thallus k a))))

/-- The lowest free entry of the request table is `k`, and nothing of an earlier request is left under its number. -/
def freshSlot (a : State) (k : Nat) : Prop :=
  freeSlot a = some k ∧ getTxn a k = none ∧ k ∉ a.dir.blocked ∧ ∀ e ∈ a.upd.queues, k ∉ e.2

/-- An uncached atomic enters the queue of the engine that owns its line's bucket, or waits for a place in it behind those that wait already; a
vector waits for its grant; and while a quench is in force every one of them is held (10 R282, R283; 08 R247; 17 R462). -/
def Obligations.AtomicsEnterTheirEngine : Prop :=
  ∀ (s : State) (t : Nat) (p : CPacket) (k : Nat),
    (∀ r ∈ [(Instr.atSwap t p, 0x10), (Instr.atCas t p, 0x11), (Instr.atAddI t p, 0x12), (Instr.atAddF32 t p, 0x13), (Instr.atAddBf16x2 t p, 0x14),
        (Instr.atMinI t p, 0x15), (Instr.atMaxI t p, 0x16), (Instr.atMinF t p, 0x17), (Instr.atMaxF t p, 0x18), (Instr.atAnd t p, 0x19),
        (Instr.atOr t p, 0x1A), (Instr.atXor t p, 0x1B), (Instr.atIncBound t p, 0x1C), (Instr.atVaddF32 t p, 0x1D)],
      let q := withOp p r.2
      let a := atStage12 s t q
      let e := bucketOwner a (bucketOf (hOffset q.head / 128))
      accepted s t q = true → attends a → freshSlot a k → atHome (regionOf s t q) q.head = false →
      exec r.1 s = .next (ended s t
        (if (engQueue a e).length < 8 ∧ engWaiters a e = [] then
          { entered s t q .engine k a with upd := { a.upd with queues := smPut a.upd.queues e (engQueue a e ++ [k]) } }
        else entered s t q (.waitEng (max s.now t + 7)) k a))) ∧
    (let q := withOp p 0x1E
     let a := atStage12 s t q
     accepted s t q = true → attends a → freeSlot a = some k →
     exec (.atVacc t p) s = .next (ended s t { entered s t q .vacc k a with acc := { a.acc with vacc := a.acc.vacc ++ [k] } })) ∧
    (∀ r ∈ requestRows t p, isAtomic (hOpcode r.2.head) = true ∨ hOpcode r.2.head = 0x1E →
      let a := atStage12 s t r.2
      accepted s t r.2 = true → a.ras.upsets = [] → a.rb kInj 7 = false → quenched a = true → r.2.vc.toNat = 0 → freeSlot a = some k →
      exec r.1 s = .next (ended s t (entered s t r.2 .held k a)))

/-- The line a request names is free at the home, and the directory has no entry of it (12 R330, R331). -/
def lineFree (a : State) (h : BitVec 256) : Prop :=
  homeOrder a h = 0 ∧ dirFind a (reqLine h).1 (reqLine h).2 = none

/-- The request in entry `k` has been answered at the home: its entry stays in the table and its transaction, at its end, in the directory until
the answer has left (02 R48; 12 R330). -/
def answering (s : State) (t : Nat) (q : CPacket) (k : Nat) (a b : State) : Prop :=
  b.fab.reqs = smPut a.fab.reqs k (entryAt s t q .home) ∧
    ∃ x : Txn, x.over = true ∧ (x.space, x.x) = reqLine q.head ∧ b.dir = { a.dir with txns := smPut a.dir.txns k x }

/-- Tags and data of the ways are as they were, but for way `j` and for what only guides replacement and prefetch (11 R298, R302, R307). -/
def sameWaysBut (j : Option Nat) (a b : State) : Prop :=
  ∀ i, some i ≠ j → { smGetD b.cch.ways i noWay with mru := false, pf := false } = { smGetD a.cch.ways i noWay with mru := false, pf := false }

/-- Units that the home leaves alone. -/
def homeFrame (a b : State) : Prop :=
  b.thl = a.thl ∧ b.rgn = a.rgn ∧ b.frm = a.frm ∧ b.acc = a.acc ∧ b.dec = a.dec ∧ b.upd = a.upd ∧ b.arb = a.arb ∧ b.spr = a.spr ∧
    b.drawn = a.drawn ∧ samePages calmPages a b

/-- A read of a line that the cache holds and no core has is answered with its data fourteen sclk after the header. A coherent one records its
requester in a new entry and stays open for `RSP_ACK` (11 R302; 12 R328, R330, R332). -/
def Obligations.HomeReadsAnswerWithTheLine : Prop :=
  ∀ (s : State) (t : Nat) (p : CPacket) (k w : Nat),
    ∀ r ∈ [(Instr.rd t p, 0x01), (Instr.rdShared t p, 0x02), (Instr.rdUnique t p, 0x03), (Instr.rdNoalloc t p, 0x04)],
      let q := withOp p r.2
      let h := q.head
      let a := atStage12 s t q
      let set := cacheSet (reqLine h).2
      let c := getWay a set w
      let l : Line := ⟨c.data, c.sp0, c.sp1⟩
      let code := if (readFlits l h).2 then okPoison else ok
      accepted s t q = true → attends a → freshSlot a k → atHome (regionOf s t q) h = true → lineFree a h →
      findWay a (reqLine h).1 (reqLine h).2 = some w → c.st ≠ 3 →
      (isCohRead h = false →
        ∃ b, exec r.1 s = .next b ∧ AnsweredData b h code (readFlits l h).1 (max s.now t + 14) ∧ answering s t q k a b ∧
          sameWaysBut none a b ∧ homeFrame a b) ∧
      (isCohRead h = true →
        (∃ v ∈ dirWays a, a.dir.sweep.testBit v = false ∧ smGet a.dir.ents (set * 16 + v) = none ∧
          ∀ e ∈ a.dir.txns, e.2.place ≠ some (set * 16 + v)) →
        ∃ b, exec r.1 s = .next b ∧ AnsweredData b h code (readFlits l h).1 (max s.now t + 14) ∧ sameWaysBut none a b ∧ homeFrame a b ∧
          (∃ dk e, dirFind b (reqLine h).1 (reqLine h).2 = some (dk, e) ∧ e.ptrs = [hSrcId h] ∧ e.fidx = 0 ∧ e.bcast = false ∧
            e.st = (if r.2 = 3 then 3 else if e.cls = 0 then 2 else 1)) ∧
          (∃ x, getTxn b k = some x ∧ x.ack = some (max s.now t + 14) ∧ x.acked = false ∧ x.stage = 4) ∧ (getReq b k).isSome = true)

/-- A write to a line that the cache holds and no core has changes the bytes it names, leaves the way dirty, and is answered `OK` thirteen
sclk after its header; a writeback of a line's only holder is answered after ten, brings its data to the home copy when it is dirty, and ends
the line's entry (11 R301, R306, R311; 12 R335). -/
def Obligations.HomeWritesChangeTheLine : Prop :=
  ∀ (s : State) (t : Nat) (p : CPacket) (k w : Nat),
    (∀ r ∈ [(Instr.wr t p, 0x05), (Instr.wrLine t p, 0x06), (Instr.mtZeroPa t p, 0x26)],
      let q := withOp p r.2
      let h := q.head
      let a := atStage12 s t q
      let set := cacheSet (reqLine h).2
      let c := getWay a set w
      let l := applyWrite ⟨c.data, c.sp0, c.sp1⟩ h q.payload
      accepted s t q = true → attends a → freshSlot a k → atHome (regionOf s t q) h = true → lineFree a h →
      findWay a (reqLine h).1 (reqLine h).2 = some w → c.st ≠ 3 →
      ∃ b, exec r.1 s = .next b ∧ Answered b q ok 0 (max s.now t + 13) ∧ answering s t q k a b ∧
        { getWay b set w with mru := false, pf := false } =
          { c with st := 2, data := l.data, sp0 := l.sp0, sp1 := l.sp1, mru := false, pf := false } ∧
        sameWaysBut (some (set * 16 + w)) a b ∧ homeFrame a b) ∧
    (∀ r ∈ [(Instr.wbDirty t p, 0x07), (Instr.wbClean t p, 0x08)],
      let q := withOp p r.2
      let h := q.head
      let a := atStage12 s t q
      let x := (reqLine h).2
      let set := cacheSet x
      let l := payloadLine q.payload
      ∀ dk e, accepted s t q = true → attends a → freshSlot a k → lineBusy a (reqLine h).1 x = false →
      dirFind a (reqLine h).1 x = some (dk, e) → e.ptrs = [hSrcId h] → e.fidx = 0 → e.bcast = false → (e.st = 3 ∨ e.st = 4 ∧ r.2 = 0x07) →
      (r.2 = 0x07 → findWay a (reqLine h).1 x = some w) →
      ∃ b, exec r.1 s = .next b ∧ Answered b q ok 0 (max s.now t + 10) ∧ b.fab.reqs = a.fab.reqs ∧ b.dir.ents = smDel a.dir.ents dk ∧
        b.dir.txns = a.dir.txns ∧ homeFrame a b ∧
        if r.2 = 0x07 then { getWay b set w with mru := false } = { getWay a set w with st := 2, data := l.data, sp0 := l.sp0, sp1 := l.sp1, mru := false } ∧
          sameWaysBut (some (set * 16 + w)) a b
        else b.cch = a.cch)

/-- Maintenance of a line that neither the cache nor the writeback buffer nor a core holds, and of a way that is invalid or clean, is answered
`OK` thirteen sclk after its header; an invalidation empties the way, and nothing else changes (11 R310, R312). -/
def Obligations.MaintenanceOfCleanLines : Prop :=
  ∀ (s : State) (t : Nat) (p : CPacket) (k : Nat),
    (∀ r ∈ [(Instr.mtCleanPa t p, 0x20), (Instr.mtInvPa t p, 0x21), (Instr.mtClinvPa t p, 0x22)],
      let q := withOp p r.2
      let h := q.head
      let a := atStage12 s t q
      accepted s t q = true → attends a → freshSlot a k → atHome (regionOf s t q) h = true → lineFree a h →
      findWay a (reqLine h).1 (reqLine h).2 = none → wbFind a (reqLine h).1 (reqLine h).2 = none →
      ∃ b, exec r.1 s = .next b ∧ Answered b q ok 0 (max s.now t + 13) ∧ answering s t q k a b ∧ sameRegsBut [] a b ∧
        sameUnits { a with dir := b.dir } b) ∧
    (∀ r ∈ [(Instr.mtCleanSw t p, 0x23), (Instr.mtInvSw t p, 0x24), (Instr.mtClinvSw t p, 0x25)],
      let q := withOp p r.2
      let h := q.head
      let a := atStage12 s t q
      let set := fld h 168 160
      let way := fld h 179 176
      let c := getWay a set way
      accepted s t q = true → attends a → freshSlot a k → c.st < 2 →
      (c.st = 1 → wbFind a c.space c.x = none) →
      ∃ b, exec r.1 s = .next b ∧ DoneAt s t q ok 13
        (if c.st = 1 ∧ r.2 ≠ 0x23 then { a with cch := { a.cch with ways := smSet a.cch.ways (set * 16 + way) { c with st := 0 } noWay } } else a) b)

/-- FMT of the region whose lines a pull reads, raw without one (03 R105; 06 R196). -/
def pullFmt (rg : Option Region) : Nat := match rg with | some r => r.fmt | none => 0

/-- The context that a pull takes: it starts with the line that holds the first byte of START_ROW, under the saturation modes in force (06
R194, R196; 07 R204, R208). -/
def pullOf (a : State) (rg : Option Region) (h : BitVec 256) (k : Nat) (reading : Bool) : PullCtx :=
  let flit := pStart h * rowBytes (pOut h) (pShape h) / 32
  { slot := k, line := hOffset h / 128, lines := pLines h, tiles := pTiles h, shape := pShape h, out := pOut h, startRow := pStart h
    fmt := pullFmt rg, satFp8 := a.dec.satFp8, satWide := a.dec.satWide
    nextLine := pullFirst (pullFmt rg) (pOut h) (pShape h) (pStart h), reading := reading, buf := []
    unit := if isEpc (pullFmt rg) && pOut h != 0 then 0 else flit / 4, blk := 0, pos := 0, ended := false, dropped := [], sent := flit
    poison := false }

/-- A pull takes the lowest free context and offers the read of its first line; an abort that names none is answered at once, and one that
names a pull ends it first: its context, its reads and its packets go, and both are answered (06 R196, R198, R199). -/
def Obligations.PullsOpenAndAbort : Prop :=
  ∀ (s : State) (t : Nat) (p : CPacket) (k : Nat),
    (let q := withBits (withOp p 0x28) [] [56]
     let h := q.head
     let a := atStage12 s t q
     let rg := regionOf s t q
     let first := pullFirst (pullFmt rg) (pOut h) (pShape h) (pStart h)
     ∀ c, accepted s t q = true → attends a → freeSlot a = some k → (List.range 8).find? (fun c => (getPull a c).isNone) = some c →
     let with_ := fun (b : State) (reading : Bool) => { b with dec := { b.dec with pulls := smPut a.dec.pulls c (pullOf a rg h k reading) } }
     exec (.stPull t p) s = .next (ended s t
       (if pLines h ≤ first then with_ (entered s t q .pull k a) false
        else offered (.pull c) 4 (hOffset h / 128 + first) rg true false (max s.now t + 8) (with_ (entered s t q .pull k a) true)))) ∧
    (let q := withBits (withOp p 0x28) [56] []
     let h := q.head
     let a := atStage12 s t q
     let named := a.dec.pulls.find? fun e => match getReq a e.2.slot with
       | some r => hTuple r.head == (hSrcChip h, hSrcType h, hSrcId h, pAbortTxn h)
       | none => false
     accepted s t q = true → attends a → (∀ e ∈ a.dec.pulls, (getReq a e.2.slot).isSome = true) →
     (named = none → freeSlot a = some k ∨ freeSlot a = none → ∃ b, exec (.stPullAbort t p) s = .next b ∧ Done s t q ok [] a b) ∧
     (∀ c x, freeSlot a = some k → named = some (c, x) → smGet a.dec.pulls c = some x →
       ∃ b, exec (.stPullAbort t p) s = .next b ∧ Answered b q ok 0 (max (max s.now t + 8) a.fab.laneFree) ∧
         b.dec = { a.dec with pulls := smDel a.dec.pulls c } ∧ b.fab.reqs = smDel a.fab.reqs x.slot ∧
         b.arb = { a.arb with queue := a.arb.queue.filter fun e => e.kind != .pull c } ∧
         b.thl = { a.thl with flights := a.thl.flights.filter fun f => f.kind != .pull c } ∧
         (∀ r, getReq a x.slot = some r → ∃ o ∈ b.fab.out, hOpcode o.head = 0x50 ∧ hResp o.head = ok ∧ hTxn o.head = hTxn r.head ∧
           hDst o.head = hSrc r.head ∧ fld o.head 175 160 = endRow x % 2 ^ 16 ∧ bit o.head 176 = true) ∧
         sameRegsBut [] a b ∧ b.frm = a.frm ∧ b.cch = a.cch ∧ b.dir = a.dir ∧ b.acc = a.acc))

/-! ### Responses and ports -/

/-- A packet on FWD is logged. A response removes the INT or EVT that it answers; a refused INT waits for its retry, without a TXN and with no
packet left of the attempt, until its fourth attempt, which is lost; the data of a fill make its way CLEAN (02 R58, R63, R64, R67; 11 R304). -/
def Obligations.ResponsesEndWhatTheyAnswer : Prop :=
  ∀ (s : State) (t : Nat) (p : CPacket),
    (let q := withVc p 1
     let a := atInput s t q
     heard s t q = true → ∃ b, exec (.fwdPacketRx t p) s = .next b ∧ b.rb (rk 0x00 0x010) 3 = true ∧ b.now = max s.now t ∧
       Recorded (ended s t a) b) ∧
    (let q := withVc (withOp p 0x50) 2
     let a := atInput s t q
     let h := q.head
     heard s t q = true → rspBadBits h = [] →
     (∀ i, findInt a h = some i →
       let rest := a.fab.ints.erase i
       let out := a.fab.out.filter fun o => !isIntPkt i o
       (hResp h ≤ 1 → exec (.rspCompRx t p) s =
         .next (ended s t { a with fab := { a.fab with ints := a.fab.ints.filter fun x => x != i } })) ∧
       (1 < hResp h → i.attempts < 4 → exec (.rspCompRx t p) s = .next (ended s t
         { a with fab := { a.fab with ints := rest ++ [{ i with txn := none, failedAt := some (max s.now t) }], out := out } })) ∧
       (1 < hResp h → 4 ≤ i.attempts → ∃ b ls lo, exec (.rspCompRx t p) s = .next b ∧ b.rb (rk 0x00 0x010) 8 = true ∧
         b.fab.ints = rest ++ ls ∧ b.fab.out = out ++ lo ∧ Recorded (ended s t a) b)) ∧
     (∀ e, findInt a h = none → findEvt a h = some e → ∃ b, exec (.rspCompRx t p) s = .next b ∧ b.fab.ints = a.fab.ints ∧
       Recorded (ended s t { a with fab := { a.fab with evts := a.fab.evts.erase e } }) b)) ∧
    (let q := withVc (withOp p 0x51) 3
     let a := atInput s t q
     let h := q.head
     let l := payloadLine q.payload
     ∀ f, heard s t q = true → rspBadBits h = [] → hResp h ≤ 1 → q.payload ≠ [] → wordsSound a → findInt a h = none →
       findEvt a h = none → (∀ e ∈ a.dir.txns, e.2.mark = false) → fromHost a h = true → a.cch.fills.find? (fun f => f.txn == some (hTxn h)) = some f →
       fillOf a f.set f.way = some f → fillWaiters a f.set f.way = [] → (getWay a f.set f.way).st = 3 →
       ∃ b, exec (.datCompRx t p) s = .next b ∧
         getWay b f.set f.way = { getWay a f.set f.way with st := 1, sp0 := l.sp0, sp1 := l.sp1, data := l.data, pf := f.pf } ∧
         b.cch.fills = a.cch.fills.filter (fun x => !(x.set == f.set && x.way == f.way)) ∧ b.fab = a.fab ∧ b.thl = a.thl ∧ b.dir = a.dir ∧
         sameRegsBut [] a b ∧ (∀ j, j ≠ f.set * 16 + f.way → smGetD b.cch.ways j noWay = smGetD a.cch.ways j noWay))

/-- What an answer of a core meets: its transaction, the message it answers, and the line's entry. -/
def answers (a : State) (h : BitVec 256) (k i : Nat) (x : Txn) (w : Await) : Prop :=
  rspBadBits h = [] ∧ hSrcType h = 0 ∧ hSrcChip h = a.straps.chip ∧ findAwait a (hTxn h) (hSrcId h) (hAddr h) = some (k, x, i, w) ∧
    getTxn a k = some x ∧ k < 64 ∧ w.wb = false ∧ (getReq a k).isSome = true

/-- `RSP_ACK` ends a coherent read whose parts are all done. A core that has written its line back is waited for; one that served a forward
leaves the line's entry with its next state and its requester recorded; one that dropped its copy leaves the entry, and brings back what it
had changed (12 R327, R328, R330, R332, R336). -/
def Obligations.CoresAnswerForwardsAndSnoops : Prop :=
  ∀ (s : State) (t : Nat) (p : CPacket) (k i : Nat) (x : Txn) (w : Await),
    (let q := withVc (withOp p 0x52) 2
     let a := atInput s t q
     let h := q.head
     heard s t q = true → rspBadBits h = [] → wordsSound a → getTxn a k = some x → k < 64 →
     a.dir.txns.find? (fun e => match getReq a e.1 with
       | some r => isCohRead r.head && !e.2.acked && hSrc r.head == hSrc h && hTxn r.head == hTxn h
       | none => false) = some (k, x) →
     x.stage = 4 → x.settled = true → x.merge = none → x.mark = false → x.ack.isSome = true →
     ∃ b, exec (.rspAckRx t p) s = .next b ∧ b.dir.txns = smDel a.dir.txns k ∧ b.fab.reqs = smDel a.fab.reqs k ∧ b.cch = a.cch ∧ b.thl = a.thl ∧
       sameRegsBut [] a b ∧ ∀ dk e, dirFind a x.space x.x = some (dk, e) →
         b.dir.ents = if e.isI then smDel a.dir.ents dk else a.dir.ents) ∧
    (let q := withVc (withOp p 0x54) 2
     let a := atInput s t q
     heard s t q = true → answers a q.head k i x w →
     ∃ b, exec (.rspFwdMissWbRx t p) s = .next b ∧ sameRegsBut [] a b ∧ b.cch = a.cch ∧ b.thl = a.thl ∧
       b.dir = { a.dir with txns := smPut a.dir.txns k { x with awaits := x.awaits.set i { w with answered := true, miss := true } } }) ∧
    (let q := withVc (withOp p 0x53) 2
     let a := atInput s t q
     ∀ r dk e, heard s t q = true → wordsSound a → answers a q.head k i x w → w.op < 0x42 → w.miss = false → getReq a k = some r →
       dirFind a x.space x.x = some (dk, e) → x.merge = none → x.mark = false → x.acked = false →
     ∃ b, exec (.rspFwdDoneRx t p) s = .next b ∧ sameRegsBut [] a b ∧ b.cch = a.cch ∧ b.thl = a.thl ∧
       smGet b.dir.ents dk = some (if hOpcode r.head = 3 then { e with st := 3, fidx := 0, ptrs := [hSrcId r.head], bcast := false }
         else (if e.st = 3 then { e with st := 4 } else e).record (hSrcId r.head)) ∧
       getTxn b k = some { x with awaits := x.awaits.set i { w with answered := true, miss := false }, stage := 4, ack := some (max s.now t) }) ∧
    (∀ c ∈ [(Instr.rspInvAckRx t p, 0x55, 2), (Instr.datSnpRx t p, 0x57, 3)],
      let q := withVc (withOp p c.2.1) c.2.2
      let a := atInput s t q
      let y : Txn := { x with awaits := x.awaits.set i { w with answered := true } }
      ∀ dk e, heard s t q = true → wordsSound a → answers a q.head k i x w → (w.op = 0x43 ∨ w.op = 0x45) →
        (c.2.1 = 0x57 → q.payload ≠ [] ∧ (∀ r, getReq a k = some r → hOpcode r.head ≠ 0x21)) → x.stage = 1 → y.settled = false →
        dirFind a x.space x.x = some (dk, e) →
      ∃ b, exec c.1 s = .next b ∧ sameRegsBut [] a b ∧ b.cch = a.cch ∧ b.thl = a.thl ∧ smGet b.dir.ents dk = some (e.drop w.core) ∧
        getTxn b k = some (if c.2.1 = 0x57 then { y with merge := some (payloadLine q.payload) } else y))

/-- A returned credit is held again. At a packet boundary the chosen packet starts: its credits are spent and the lanes are taken for its
flits; with the answer of the home a transaction whose parts are done ends and frees its entry, and one that awaits `RSP_ACK` has its time
from there; one that carries an order starts the count of the reset, or retention; the S-net output takes the chosen message for two sclk; the
INT of a page whose attempt failed 1,024 sclk ago is sent again under a free TXN, if there is one; and in fail-stop the FAULT message is due
again every 4,096 sclk (02 R45, R48, R54, R67, R68, R71, R77, R499; 12 R330, R340; 16 R436, R441). -/
def Obligations.PortsSendWhatIsDue : Prop :=
  ∀ (s : State) (t : Nat),
    let a := advance s t
    let T := max s.now t
    (∀ vc, vc < 5 → inReset a = false → exec (.cnetCreditRx t vc) s =
      .next (ended s t { a with fab := { a.fab with credHeld := a.fab.credHeld.set vc (nth a.fab.credHeld vc 0 + 1) } })) ∧
    (inReset a = false → a.fab.laneFree ≤ T → choosePacket a = none → exec (.packetSend t) s = .next (ended s t a)) ∧
    (∀ i o, inReset a = false → a.fab.laneFree ≤ T → choosePacket a = some (i, o) →
      ∃ b, exec (.packetSend t) s = .next b ∧ b.fab.lanes = some (T, o) ∧ b.fab.laneFree = T + 1 + o.payload.length ∧
        b.fab.credHeld = a.fab.credHeld.set o.vc (nth a.fab.credHeld o.vc 0 - (1 + o.payload.length)) ∧ b.frm = a.frm ∧ b.cch = a.cch ∧
        b.acc = a.acc ∧ b.rgn = a.rgn ∧
        (o.pull = none → (o.order = some .retain → a.pwr.retainAt = none → b.pwr.retainAt = some T ∧ b.pwr.recorded = []) ∧
          (∀ x, o.order = some (.reset x) → a.pwr.ordered = none → b.pwr.ordered = some (x, T + 16, T + 32, false)) ∧
          (b.thl = a.thl ∧ b.dec = a.dec ∧ ∃ l, b.fab.out = a.fab.out.eraseIdx i ++ l) ∧
          (o.vc = 0 ∨ 2 ≤ o.vc ∧ o.entry = false → b.dir = a.dir ∧ b.fab.reqs = a.fab.reqs) ∧
          (o.vc = 1 → b.fab.reqs = a.fab.reqs) ∧
          (∀ k r x, 2 ≤ o.vc → a.fab.reqs.find? (fun e => answersTuple e.2.head o) = some (k, r) → getReq a k = some r →
            getTxn a k = some x → k < 64 →
            (x.over = true → x.ack = none → (∀ y ∈ a.fab.out.eraseIdx i, answersTuple r.head y = false) →
              b.dir.txns = smDel a.dir.txns k ∧ b.fab.reqs = smDel a.fab.reqs k) ∧
            (x.ack.isSome = true → x.acked = false → getTxn b k = some { x with ack := some T } ∧ b.fab.reqs = a.fab.reqs)))) ∧
    (∀ i m, inReset a = false → a.fab.sFree ≤ T → chooseSnet a = some (i, m) → exec (.snetMessageSend t) s =
      .next (ended s t { a with fab := { a.fab with sOut := a.fab.sOut.eraseIdx i, sLanes := some (T, m), sFree := T + 2 } })) ∧
    (∀ page i, page < 18 → logicRuns a = true → failed a = false →
      (a.fab.ints.find? fun i => i.page == page && (match i.failedAt with | some f => decide (f + 1024 ≤ T) | none => false)) = some i →
      let rest := a.fab.ints.erase i
      ∃ b, exec (.intRetry t page) s = .next b ∧ sameRegsBut [] a b ∧ sameUnits a b ∧
        match freeIntTxn { a with fab := { a.fab with ints := rest } } with
        | some x => b.fab.ints = rest ++ [{ i with txn := some x, attempts := i.attempts + 1, since := T, failedAt := none }] ∧
            ∃ o, b.fab.out = a.fab.out ++ [o] ∧ o.vc = 0 ∧ hOpcode o.head = 0x38 ∧ hTxn o.head = x ∧ o.readyAt = T ∧
              hParam o.head = (i.vector + page * 256) % 2 ^ 64
        | none => b.fab = { a.fab with ints := rest ++ [{ i with txn := none, attempts := i.attempts + 1, failedAt := some T }] }) ∧
    (failed a = true → a.ras.faultAt + 4096 ≤ T → exec (.faultRepeat t) s = .next (ended s t
      { a with ras := { a.ras with faultAt := a.ras.faultAt + 4096 }
               fab := { a.fab with sOut := a.fab.sOut ++
                 [{ typ := 7, arg := a.straps.tile + a.rf (rk 0x09 0x054) 3 1 * 256, readyAt := a.ras.faultAt + 4096 }] } }))

/-- The S-net receiver parses a message whose beat 0 comes in sclk `t`: LOGIC runs and is neither fused off nor in fail-stop, and the receiver
has its footing (02 R69; 13 R369; 16 R423). -/
def hearsSnet (s : State) (t : Nat) : Prop :=
  let a := advance s t
  a.straps.fused = false ∧ a.pwr.porst = false ∧ a.fab.footing = false ∧ logicRuns a = true ∧ failed (advance a (t + 1)) = false

/-- An accepted TICK begins its frame two sclk later; a release ends its barrier, a grant brings its tokens, a quench and its release take
effect at beat 1, a FAULT of another tile is counted and logged; a message of bad framing or CHK is logged and discarded (02 R69, R70,
R72-R74; 05 R179; 13 R372; 16 R430). -/
def Obligations.SnetMessagesAct : Prop :=
  ∀ (s : State) (t : Nat),
    let a := advance s t
    let b1 := advance a (t + 1)
    let T1 := max s.now (t + 1)
    (∀ frame : BitVec 16, hearsSnet s t → ∃ b, exec (.tick t frame) s = .next b ∧ b.frm.frameNo = frame.toNat ∧
      b.frm.frame0 = some (max s.now (t + 2)) ∧ b.frm.tickRef = some (max s.now (t + 2)) ∧ b.frm.selfTimed = false) ∧
    (∀ id : BitVec 12, hearsSnet s t → ∃ b, exec (.barRelease t id) s = .next b ∧
      match b1.frm.barriers.find? fun b => b.2.1 == id.toNat && decide (T1 ≤ b.2.2) && decide (frameAt b1 (eStart (actEnts b1 b.1)) < T1) with
      | some w => Recorded { b1 with pending := s.pending, frm := { b1.frm with barriers := b1.frm.barriers.filter fun x => x != w } } b
      | none => b.rb (rk 0x01 0x010) 3 = true ∧ Recorded { b1 with pending := s.pending } b) ∧
    (let c := catchUp b1 (T1 + 1)
     hearsSnet s t → quenched b1 = false → ∃ b, exec (.quench t) s = .next b ∧ b.fab = { c.fab with quench := some T1, quenchAt := T1 } ∧
      b.frm = { c.frm with
        state := (match c.frm.state with | .running => FState.quenched | .resync => FState.quenched | x => x)
        stopAt := some (match c.frm.stopAt with | some q => min q T1 | none => T1)
        ingress := [], egress := c.frm.egress.filter fun f => decide (f.sclk ≤ T1 + 64) } ∧
      sameRegsBut [] c b ∧ b.thl = c.thl ∧ b.acc = c.acc ∧ b.cch = c.cch ∧ b.dir = c.dir) ∧
    (hearsSnet s t → quenched b1 = true → ∃ b, exec (.quenchRelease t) s = .next b ∧
      b.fab = { b1.fab with quench := none, release := T1 } ∧ sameRegsBut [] b1 b ∧ sameUnits b1 b) ∧
    (∀ (tile : BitVec 8) (n : BitVec 4) m u r w, hearsSnet s t → tile.toNat = s.straps.tile → 1 ≤ n.toNat → n.toNat ≤ 10 →
      let b2 := advance b1 (t + 2)
      b2.pwr.req = some (m, u, r, w) → ∃ b, exec (.wakeGnt t tile n) s = .next b ∧
        b.pwr = { b2.pwr with tokens := if b2.pwr.queue.isEmpty then 0 else min n.toNat m, req := none } ∧ sameRegsBut [] b2 b ∧ b.fab = b2.fab) ∧
    (∀ (tile : BitVec 8) (c : BitVec 4), hearsSnet s t → tile.toNat ≠ s.straps.tile → 1 ≤ c.toNat → c.toNat ≤ 7 →
      ∃ b, exec (.faultRx t tile c) s = .next b ∧ b.rg (rk 0x09 0x0A8) = b1.rg (rk 0x09 0x0A8) + 1 ∧
        b.rg (rk 0x09 0x060) = BitVec.ofNat 32 (0x80000000 + tile.toNat + c.toNat * 256) ∧ b.rb (rk 0x09 0x010) 12 = true ∧
        b.thl = b1.thl ∧ b.frm = b1.frm ∧ b.cch = b1.cch) ∧
    (∀ (x y : BitVec 16), hearsSnet s t → bit x 15 = true →
      (bit y 15 = true ∨ (List.range 4).foldl (fun c i => c ^^^ fld x (4 * i + 3) (4 * i) ^^^ fld y (4 * i + 3) (4 * i)) 0 ≠ 0) →
      ∃ b, exec (.snetMessageDiscard t x y) s = .next b ∧ b.rb (rk 0x00 0x010) 9 = true ∧ Recorded { b1 with pending := s.pending } b)

/-! ### Frames and fronds -/

/-- The lane map steers the lanes of a flit first. A sound flit that an ingress frond awaits enters its buffer, and one that none awaits, or
whose CRC fails, is logged; a lane that reads 1 in an idle flit is recorded. A lost TICK faults the frame and leaves the engine in RESYNC,
and in IDLE and STOPPED lets further flits drop; the controller times a frame start itself; a validation makes its program PENDING or empties
its half; a barrier without its release faults the frame (02 R37, R38, R72; 04 R130; 05 R169, R176, R177, R179; 14 R384, R385). -/
def Obligations.FramesTakeFlitsAndEnd : Prop :=
  ∀ (s : State) (t : Nat),
    let a := advance s t
    let T := max s.now t
    (∀ f : BFlit, logicRuns a = true → failed a = false →
      let d := (steerIn a f).1
      let side := (steerIn a f).2
      let k := rk 0x0A 0x068
      (bit side 0 = true → quenched a = true ∨ a.frm.quietB = true → exec (.bFlitRx t f) s = .next (ended s t a)) ∧
      (bit side 0 = true → quenched a = false → a.frm.quietB = false → injArmed a 10 = false →
        (fld side 63 48 ≠ (bnetCrc (side.extractLsb' 0 48) d).toNat → ∃ b, exec (.bFlitRx t f) s = .next b ∧
          b.rb (rk 0x00 0x010) 5 = true ∧ b.frm = a.frm ∧ b.thl = a.thl ∧ b.acc = a.acc) ∧
        (fld side 63 48 = (bnetCrc (side.extractLsb' 0 48) d).toNat → fld side 7 5 = 0 → fld side 47 44 = 0 →
          match matchFlit a (fld side 23 8) (fld side 35 24) (bit side 1) with
          | some (n, k) => exec (.bFlitRx t f) s =
              .next (ended s t { a with frm := { a.frm with ingress := a.frm.ingress ++ [⟨n, k, ⟨d, bit side 3, bit side 4⟩⟩] } })
          | none => ∃ b, exec (.bFlitRx t f) s = .next b ∧ b.rb (rk 0x00 0x010) 6 = true ∧ Recorded (ended s t a) b)) ∧
      (bit side 0 = false → match idleOnes (d, side) with
        | [] => exec (.bFlitRx t f) s = .next (ended s t a)
        | lane :: _ => ∃ b, exec (.bFlitRx t f) s = .next b ∧ b.rb (rk 0x0A 0x010) 4 = true ∧ Recorded (ended s t a) b ∧
            (bit (a.rg k) 31 = false → b.rg k = BitVec.ofNat 32 (0x80010000 + lane)))) ∧
    (∀ r, works a = true → a.frm.tickRef = some r → r + period a + 2 < T →
      ∃ b, exec (.tickLost t) s = .next b ∧ b.frm.tickRef = none ∧
        match (endFrame a).frm.state with
        | .failed => b.frm.state = .failed
        | .idle => b.frm.state = .idle ∧ b.rb (rk 0x01 0x010) 1 = true ∧ b.frm.quietB = true
        | .stopped => b.frm.state = .stopped ∧ b.rb (rk 0x01 0x010) 1 = true ∧ b.frm.quietB = true
        | _ => b.frm.state = .resync ∧ b.rb (rk 0x01 0x010) 1 = true ∧ b.frm.faulted = true) ∧
    (∀ f, a.frm.frame0 = some f → f + period a ≤ T →
      (works a = true → a.frm.tickRef = none →
        ∃ b, exec (.selfTimedFrame t) s = .next b ∧ b.frm.frame0 = some (f + period a) ∧ b.frm.selfTimed = true ∧ b.frm.runs = false ∧
          b.thl.rounds = 0) ∧
      (works a = false → a.pwr.porst = false → a.pwr.logic = true →
        exec (.selfTimedFrame t) s = .next (ended s t
          { a with frm := { a.frm with frame0 := some (f + period a), selfTimed := true }, thl := { a.thl with rounds := 0, openRows := [] } }))) ∧
    (∀ v sec, works a = true → wordsSound a → a.frm.valAt = some (v, sec) →
      let r := validate (venvOf a sec) (entryOf a.frm.mem (otherHalf a))
      v + r.sclk ≤ T →
      ∃ b, exec (.validationEnd t) s = .next b ∧ b.frm.valAt = none ∧ b.rg (rk 0x01 0x064) = BitVec.ofNat 32 (0x80000000 + r.code + mkFld 17 8 r.idx) ∧
        b.thl = a.thl ∧ b.acc = a.acc ∧
        if r.code = 0 then b.frm.inact = .pending ∧ b.frm.mem = a.frm.mem ∧
          b.frm.pend = some { secure := sec, firstClaim := r.first, accesses := r.a, acceptedAt := v + r.sclk }
        else b.frm.inact = .empty ∧ b.frm.pend = none ∧ b.rb (rk 0x01 0x010) 0 = true) ∧
    (∀ n w, n < 1024 → works a = true → a.frm.barriers.find? (fun b => b.1 == n) = some w → w.2.2 < T →
      (catchUp a (w.2.2 + 1)).frm.barriers.contains w = true →
      ∃ b, exec (.barTimeout t n) s = .next b ∧ b.rb (rk 0x01 0x010) 2 = true ∧ b.frm.tickRef = none ∧ b.frm.barriers = [] ∧ b.frm.faulted = true)

/-- Entry `n` of the running frame as the command of sclk `t` finds it: LOGIC works, the frame runs, what was due before has happened and left
the entry as it was, no word is in error, and neither a fault nor a quench has stopped the entry. -/
def frondDue (s : State) (t n : Nat) : Prop :=
  let a := advance s t
  let c := catchUp a a.now
  inProgram a n = true ∧ inProgram c n = true ∧ works a = true ∧ c.frm.runs = true ∧ failed c = false ∧ wordsSound c ∧ actEnts c n = actEnts a n ∧ unhalted c a.now = true

/-- A frond starts in the sclk that its START names: it is in progress from then on. There an OPEN_GROUP records its group, a close closes its
group or has it closing, a WAKE_TIER queues the tiers it names and a SLEEP_TIER puts them to sleep, a BARRIER sends BAR_ARRIVE and waits, and
a FENCE leaves its id and sends its EVT (05 R170, R174, R179, R180; 08 R226, R237). -/
def Obligations.FrondsStartOnTheirSclk : Prop :=
  ∀ (s : State) (t n : Nat),
    let a := advance s t
    let c := catchUp a a.now
    let e := actEnts c n
    let g := eRgn e
    frondDue s t n → smGet c.frm.progress n = none → frameAt c (eStart e) = max s.now t → unquenched c (max s.now t) = true →
    (∀ r ∈ [(Instr.egress t n, ofKind 1 e), (Instr.ingressStore t n, ofKind 2 e), (Instr.ingressAcc t n, ofKind 3 e),
        (Instr.openGroup t n, ofKind 4 e), (Instr.discard t n, ofClose 0 e), (Instr.storeRound t n, ofClose 1 e),
        (Instr.storeStats t n, ofClose 2 e), (Instr.closeForward t n, ofClose 3 e), (Instr.applyUpdate t n, ofClose 4 e),
        (Instr.forwardSend t n, ofForward 0 e), (Instr.forwardReceive t n, ofForward 1 e), (Instr.wakeTier t n, ofKind 7 e),
        (Instr.sleepTier t n, ofKind 8 e), (Instr.barrier t n, ofKind 9 e), (Instr.fence t n, ofKind 10 e)],
      r.2 = true → ∃ b, exec r.1 s = .next b ∧ (∃ k, smGet b.frm.progress n = some k) ∧ b.frm.active = c.frm.active ∧ b.rgn = c.rgn) ∧
    (ofKind 4 e = true → ∃ b st, exec (.openGroup t n) s = .next b ∧ (st = 1 ∨ st = 2) ∧ getGroup b g = some
      { st := st, lane := eLane e, lanes := eLines e, wlsb := eWlsb e, stats := eStats e == 1, entry := n
        closeAt := frameAt c (leavesAt (actEnts c) (hdrCount (actEnts c 0)) n g) - 1 }) ∧
    (∀ r ∈ [(Instr.discard t n, ofClose 0 e), (Instr.closeForward t n, ofClose 3 e)], r.2 = true → g < nGroups s.straps.build →
      ∃ b, exec r.1 s = .next b ∧ getGroup b g = none ∧ b.rf (kGrp g) 31 16 = c.frm.frameNo % 2 ^ 16 ∧ b.thl = c.thl) ∧
    (∀ r ∈ [(Instr.storeRound t n, ofClose 1 e), (Instr.storeStats t n, ofClose 2 e), (Instr.applyUpdate t n, ofClose 4 e)], r.2 = true →
      ∀ x, getGroup c g = some x → x.st ≠ 3 → (∃ y ∈ claimsOf (penvOf c) (actEnts c) n, max s.now t < frameAt c y.t) →
      ∃ b, exec r.1 s = .next b ∧ getGroup b g = some { x with st := 3 }) ∧
    (ofKind 7 e = true → c.pwr.tiers.length = 10 → ∃ b, exec (.wakeTier t n) s = .next b ∧ b.thl = c.thl ∧ b.acc = c.acc ∧
      ∀ i, i < 10 → (fld e 73 64).testBit i = true → ((tier c i).st = .off ∨ (tier c i).st = .sleep) →
        (tier b i).st = .queued ∧ i ∈ b.pwr.queue) ∧
    (ofKind 8 e = true → c.pwr.tiers.length = 10 → ∃ b, exec (.sleepTier t n) s = .next b ∧ b.thl = c.thl ∧ b.acc = c.acc ∧
      ∀ i, i < 10 → (fld e 73 64).testBit i = true → (planPending c).testBit i = false → (i = 9 → t9Needed c = false) →
        (tier c i).st = .awake → (tier b i).st = .entering ∧ (tier b i).start = max s.now t ∧ (tier b i).thenOff = false) ∧
    (ofKind 9 e = true → ∃ b, exec (.barrier t n) s = .next b ∧ b.thl = c.thl ∧ b.acc = c.acc ∧
      b.fab.sOut = c.fab.sOut ++ [{ typ := 2, arg := fld e 75 64, readyAt := max s.now t }] ∧
      b.frm.barriers = c.frm.barriers ++ (if fld e 112 96 = 0 then [] else [(n, fld e 75 64, max s.now t + fld e 112 96)])) ∧
    (ofKind 10 e = true → ∃ b, exec (.fence t n) s = .next b ∧ b.thl = c.thl ∧ b.acc = c.acc ∧
      b.rg (rk 0x01 0x074) = BitVec.ofNat 32 (0x80000000 + fld e 71 64 + mkFld 23 8 c.frm.frameNo) ∧
      (bit e 72 = true → ∃ o ∈ b.fab.out, o.vc = 0 ∧ o.readyAt = max s.now t + 1 ∧ hOpcode o.head = 0x39 ∧ hParam o.head = 0xF000 + fld e 71 64))

/-- The ingress beat that falls due is the flit that has come for it, or the zero beat with both spores, which is logged: INGRESS_STORE writes
it to its line, INGRESS_ACC and FORWARD_RECEIVE keep it for their adds (02 R38, R39; 06 R191, R192; 08 R245). -/
def Obligations.IngressBeatsAreConsumed : Prop :=
  ∀ (s : State) (t n k : Nat),
    let a := advance s t
    let c := catchUp a a.now
    let e := actEnts c n
    let got := c.frm.ingress.find? fun f => f.entry == n && f.beat == k
    let l : Line := match got with | some f => f.line | none => ⟨0, true, true⟩
    ∀ j x rest, frondDue s t n → unquenched c (max s.now t) = true → smGet c.frm.progress n = some j →
      j < (claimsRaw (penvOf c) (actEnts c) n).length → (claimsOf (penvOf c) (actEnts c) n).drop j = x :: rest →
      frameAt c x.t = max s.now t →
      (∀ y ∈ rest, max s.now t < frameAt c y.t ∨ ofKind 2 e = true ∧ y.cls = 2 ∧ frameAt c y.t = max s.now t) → x.k = k →
    ∀ r ∈ [(Instr.ingressStore t n, ofKind 2 e && x.cls == 0), (Instr.ingressAcc t n, ofKind 3 e && x.cls == 2),
        (Instr.forwardReceive t n, ofForward 1 e && x.cls == 2),
        (Instr.bLate t n k, (ofKind 2 e && x.cls == 0 || (ofKind 3 e || ofForward 1 e) && x.cls == 2) && got.isNone && decide (k < eBeats e) &&
          decide (frameAt a (eStart e + k * ePace e) ≤ max s.now t))],
      r.2 = true → ∃ b, exec r.1 s = .next b ∧
        smGet b.frm.progress n = some (j + 1 + (rest.takeWhile fun y => decide (frameAt c y.t ≤ max s.now t)).length) ∧
        b.frm.ingress = c.frm.ingress.filter (fun f => !(f.entry == n && f.beat == k)) ∧ (got = none → b.rb (rk 0x00 0x010) 7 = true) ∧
        b.acc = c.acc ∧ b.rgn = c.rgn ∧
        if ofKind 2 e = true then ∃ m, Recorded { c with frm := { c.frm with ingress := b.frm.ingress } } m ∧ samePages [0x02, 0x03, 0x0A] c m ∧
          b.thl = (writeLine (dropSteps m x.what) x.what l 0).thl
        else heldLine b n k = some l ∧ b.thl = c.thl

/-! ### Events inside the slice -/

/-- A commit check judges one entry an sclk from its write on, and when it ends it refuses its commit or lets it wait for the tick; lanes, tags and directory are READY when their initializations
end; the pass over the thallus starts when the tiers are up and leaves every line zero; a sweep ends with its last entry; a refresh round
moves the refresh row, and a pass that lags begins catch-up rounds or ends in fail-stop; the guard closes every bank; the temperature is as it
was read (03 R101, R102; 04 R118, R128-R131, R144, R500; 08 R250; 11 R316; 12 R342, R344; 14 R378, R379). -/
def Obligations.WorkEndsInItsTime : Prop :=
  ∀ (s : State) (t : Nat),
    let a := advance s t
    let T := max s.now t
    (works a = true →
      exec (.rgnCommitCheckEnd t) s = .next (ended s t (rgnCheckEnd a)) ∧ exec (.sprCheckEnd t) s = .next (ended s t (sprCheckEnd a)) ∧
      (∀ n, a.acc.initAt = some n → n + 512 ≤ T →
        exec (.accInitDone t) s = .next (ended s t { a with acc := { a.acc with initAt := none, ready := true } })) ∧
      (∀ n, a.cch.initAt = some n → n + 160 ≤ T →
        exec (.cacheInitDone t) s = .next (ended s t { a with cch := { a.cch with initAt := none, ready := true } })) ∧
      (∀ n, a.dir.initAt = some n → n + 256 ≤ T →
        exec (.dirInitDone t) s = .next (ended s t { a with dir := { a.dir with initAt := none, ready := true } })) ∧
      ((∀ e ∈ a.dir.ents, a.dir.sweep.testBit (e.1 % 16) = false) →
        (∀ e ∈ a.dir.txns, e.1 < 128) → exec (.dirSweepEnd t) s = .next (ended s t { a with dir := { a.dir with sweep := 0 } })) ∧
      (a.thl.initDue = true → a.thl.initAt = none → tiersUp a = true →
        exec (.thlInitStart t) s = .next (ended s t { a with thl := { a.thl with initDue := false, initAt := some T, initLost := 0 } })) ∧
      (∀ n, a.thl.initAt = some n → 1048576 ≤ initSclk a n →
        ∃ b, exec (.thlInitEnd t) s = .next b ∧ b.thl.initAt = none ∧ b.fab = a.fab ∧ b.frm = a.frm ∧
          ((∀ i, i < 10 → tierFailed a i = false) → a.spr.camAct = [] → a.spr.serves = false → a.spr.rebuild = .idle →
            ∀ line, line < 1048576 → (readLine b line).line = Line.zero)) ∧
      (∀ f, a.frm.frame0 = some f → f + period a ≤ T + 64 → a.frm.haltAt = none →
        exec (.guardPrecharge t) s = .next (ended s t { a with thl := { a.thl with openRows := [] } })) ∧
      (∀ f, a.frm.frame0 = some f → f + period a ≤ T + 64 → a.frm.haltAt.isSome = true →
        ∃ b, exec (.guardPrecharge t) s = .next b ∧ b.thl = { a.thl with openRows := [] } ∧ b.acc.vacc = [] ∧ b.frm = a.frm)) ∧
    (let c := rgnCheckTo s s.now
     s.rgn.checking = true → s.rgn.cancelAt = none →
      (s.rgn.fault = none → s.rgn.checked = 0 → (∀ x ∈ s.ras.upsets, x.1 ≠ 18) →
        let n := min (rgnChecks s) (s.now + 1 - s.rgn.armedAt)
        c.rgn.fault = (List.range n).findSome? (fun j => (rgnCheckAt s j).map fun f => (s.rgn.armedAt + j + 1, f)) ∧
          (c.rgn.fault = none → c.rgn.checked = n)) ∧
      (c.rgn.fault = none → rgnChecks c ≤ c.rgn.checked → rgnCheckedAt c ≤ s.now →
        rgnCheckEnd s = { c with rgn := { c.rgn with checking := false } }) ∧
      (∀ e k i f h, c.rgn.fault = some (e, k, i, f, h) → e ≤ s.now →
        let b := rgnCheckEnd s
        b.rgn.pending = false ∧ b.rgn.checking = false ∧ b.rf (rk 0x02 0x044) 3 3 = 1 ∧ b.rf (rk 0x02 0x044) 7 4 = k % 16 ∧
          b.rf (rk 0x02 0x044) 13 8 = i % 64 ∧ b.rb (rk 0x02 0x010) 6 = true ∧ b.thl = c.thl)) ∧
    (∀ k, s.spr.armed = some k →
      let k1 := sprChkTo s s.now k
      let c := sprCheckTo s s.now
      (k.fault = none → k.checked = 0 →
        k1.fault = (List.range (min 656 (s.now + 1 - k.start))).findSome? (fun i => (sprFault s k i).map fun f => (k.start + i + 1, f))) ∧
      (s.spr.checking = true → s.spr.cancelAt = none →
        (k1.fault = none → k.start + 656 ≤ s.now →
          sprCheckEnd s = { c with spr := { c.spr with checking := false, checkedAt := k.start + 656 } }) ∧
        (∀ e x ti i d, k1.fault = some (e, x, ti, i, d) → e ≤ s.now →
          let b := sprCheckEnd s
          b.spr = { c.spr with pending := false, checking := false, armed := none } ∧ b.rf (rk 0x0A 0x048) 3 3 = 1 ∧
            b.rf (rk 0x0A 0x048) 6 4 = x % 8 ∧ b.rf (rk 0x0A 0x048) 11 8 = ti % 16 ∧ b.rf (rk 0x0A 0x048) 17 12 = i % 64 ∧
            b.rf (rk 0x0A 0x048) 18 18 = d % 2 ∧ b.rb (rk 0x0A 0x010) 0 = true ∧ b.thl = s.thl))) ∧
    (∀ f, a.frm.frame0 = some f → a.pwr.porst = false → a.thl.passHeld = none → a.thl.rounds < windowRounds a →
      f + framePre a + 96 * (a.thl.rounds + 1) ≤ T →
      ∃ b, exec (.refreshRound t) s = .next b ∧ b.fab.reqs = a.fab.reqs ∧ b.frm = a.frm ∧
        b.thl = if a.thl.refRow = 1031 then { a.thl with rounds := a.thl.rounds + 1, refRow := 0, passStart := f + framePre a + 96 * (a.thl.rounds + 1),
                                                                     catchup := false }
          else { a.thl with rounds := a.thl.rounds + 1, refRow := (a.thl.refRow + 1) % 1032 }) ∧
    (logicRuns a = true →
      (∀ deg : BitVec 8, ∃ b, exec (.tempUpdate t deg) s = .next b ∧ b.rf (rk 0x03 0x05C) 7 0 = deg.toNat ∧
        b.rb (rk 0x03 0x05C) 8 = decide (85 < deg.toNat) ∧ b.rb (rk 0x03 0x05C) 9 = decide (105 < deg.toNat) ∧ b.thl = a.thl ∧
        (105 < deg.toNat → a.rb (rk 0x03 0x05C) 9 = false → b.rb (rk 0x03 0x010) 6 = true)) ∧
      (a.thl.catchup = false → tRet a * 7 / 8 ≤ passTime a → ∃ b, exec (.refLag t) s = .next b ∧ b.rb (rk 0x03 0x010) 0 = true ∧
        Recorded (ended s t { a with thl := { a.thl with catchup := true } }) b) ∧
      (failed a = false → tRet a ≤ passTime a → ∃ b, exec (.refMiss t) s = .next b ∧ failed b = true ∧ b.frm.state = .failed ∧
        b.rf (rk 0x09 0x054) 3 1 = 1 ∧ b.rb (rk 0x03 0x010) 1 = true ∧ b.fab.reqs = []))

/-- A wait that has lasted its limit ends: the request is answered `NACK_TMO`, the error logged, and its entry freed, or kept with its transaction
until the answer has left; a fill that fails frees its way, a writeback without an answer is held and sent again 1,024 sclk later, and a
transaction takes what is late as answered. A retry takes the place that has come free for the one that has waited longest, and a blocked read
starts when its line is free. A request without progress, or a watchdog that is not served, brings fail-stop or a reset of the SMC (10 R283; 11
R303, R305, R306; 12 R330, R331, R340; 13 R364, R365, R368; 17 R459; which fill timeouts are logged is DEDUCED, notes/assumptions/60.md). -/
def Obligations.WaitsEndAtTheirLimits : Prop :=
  ∀ (s : State) (t k : Nat) (r : Req),
    let a := advance s t
    let T := max s.now t
    let h := r.head
    works a = true → wordsSound a →
    (k < 64 → getReq a k = some r →
      (∀ n, (r.phase = .waitWay n ∨ r.phase = .waitWb n ∨ r.phase = .waitEng n) → n + waitLimit a n ≤ T → getTxn a k = none →
        ∃ b, exec (.waitTmo t k) s = .next b ∧ AnsweredReq b r nackTmo (T + 1) ∧ b.fab.reqs = smDel a.fab.reqs k ∧ b.rb (rk 0x09 0x010) 7 = true ∧
          b.thl = a.thl ∧ b.cch = a.cch) ∧
      (∀ n x, (r.phase = .waitWay n ∨ r.phase = .waitWb n ∨ r.phase = .waitEng n) → n + waitLimit a n ≤ T → getTxn a k = some x →
        x.ack = none → ∃ b, exec (.waitTmo t k) s = .next b ∧ AnsweredReq b r nackTmo (T + 1) ∧ b.rb (rk 0x09 0x010) 7 = true ∧
          getTxn b k = some { x with stage := 4 } ∧ getReq b k = some { r with progress := T, phase := .home } ∧ b.thl = a.thl ∧ b.cch = a.cch) ∧
      (∀ n, r.phase = .blocked n → n + blockLimit a n ≤ T → getTxn a k = none →
        ∃ b, exec (.blockTmo t k) s = .next b ∧ AnsweredReq b r nackTmo (T + 1) ∧ b.fab.reqs = smDel a.fab.reqs k ∧ b.rb (rk 0x05 0x010) 2 = true ∧
          b.dir = { a.dir with blocked := a.dir.blocked.filter (· != k) } ∧ b.thl = a.thl ∧ b.cch = a.cch) ∧
      (r.progress + stallLimit a r.progress ≤ T → ∃ b, exec (.stall t k) s = .next b ∧ failed b = true ∧ b.frm.state = .failed ∧
        b.rf (rk 0x09 0x054) 3 1 = 6 ∧ b.rb (rk 0x09 0x010) 9 = true ∧ b.fab.reqs = []) ∧
      (∀ n, r.phase = .waitEng n →
        let e := bucketOwner a (bucketOf (reqLine h).2)
        (engQueue a e).length < 8 → (engWaiters a e).head? = some k → (∀ q ∈ a.upd.queues, k ∉ q.2) → exec (.allocWaitRetry t k) s = .next (ended s t
          { a with fab := { a.fab with reqs := smPut a.fab.reqs k { r with progress := T, phase := .engine } }
                   upd := { a.upd with queues := smPut a.upd.queues e (engQueue a e ++ [k]) } })) ∧
      (∀ w, getTxn a k = none → 1 ≤ hOpcode h → hOpcode h ≤ 4 → isCohRead h = false → lineBusy a (reqLine h).1 (reqLine h).2 = false →
        parkedFor a (reqLine h).1 (reqLine h).2 = false →
        a.dir.blocked.find? (fun b => match getReq a b with | some q => reqLine q.head == reqLine h | none => false) = some k →
        dirFind a (reqLine h).1 (reqLine h).2 = none → findWay a (reqLine h).1 (reqLine h).2 = some w →
        let c := getWay a (cacheSet (reqLine h).2) w
        c.st ≠ 3 → ∃ b, exec (.blockedStart t k) s = .next b ∧
          AnsweredData b h (if (readFlits ⟨c.data, c.sp0, c.sp1⟩ h).2 then okPoison else ok) (readFlits ⟨c.data, c.sp0, c.sp1⟩ h).1
            (max (T + 3) (r.arrived + 14)) ∧
          (∃ y : Txn, y.over = true ∧ (y.space, y.x) = reqLine h ∧
            b.dir = { a.dir with blocked := a.dir.blocked.filter (· != k), txns := smPut a.dir.txns k y }) ∧
          getReq b k = some { r with progress := T, phase := .home } ∧ sameWaysBut none a b) ∧
      (∀ x n, getTxn a k = some x → x.awaits = [] → x.stage = 4 → x.merge = none → x.mark = false → x.ack = some n → x.acked = false →
        (∀ o ∈ a.fab.out, answersTuple h o = false) → n + fwdLimit a n ≤ T → ∃ b, exec (.fwdTmo t k) s = .next b ∧ b.rb (rk 0x05 0x010) 1 = true ∧
          b.rg (rk 0x05 0x070) = a.rg (rk 0x05 0x070) + 1 ∧ b.dir.txns = smDel a.dir.txns k ∧ b.fab.reqs = smDel a.fab.reqs k)) ∧
    (∀ x w, k < 640 → getTxn a k = some x → w ∈ x.awaits → w.left = true → (w.answered = false ∨ w.miss = true ∧ w.wb = false) →
      w.since + fwdLimit a w.since ≤ T → ∃ b, exec (.fwdTmo t k) s = .next b ∧ b.rb (rk 0x05 0x010) 1 = true) ∧
    (∀ set way f, set < 512 → way < 12 → fillOf a set way = some f → f.txn.isSome = true → f.since + cnetLimit a f.since ≤ T → fillWaiters a set way = [] →
      (∀ e ∈ a.dir.txns, e.2.mark = false) → (getWay a set way).st = 3 → ∃ b, exec (.fillTmo t set way) s = .next b ∧
        getWay b set way = { getWay a set way with st := 0, pf := false, mru := false } ∧
        b.cch.fills = a.cch.fills.filter (fun x => !(x.set == set && x.way == way)) ∧ b.thl = a.thl ∧
        if f.pf then sameRegsBut [rk 0x04 0x074] a b else b.rb (rk 0x04 0x010) 2 = true) ∧
    (∀ e, k < 72 → smGet a.cch.wb k = some e → e.space = true →
      (e.failedAt = none → e.stalled = false → e.since + cnetLimit a e.since ≤ T → T < e.since + cnetLimit a e.since + 1024 →
        ∃ b, exec (.wbStall t k) s = .next b ∧ b.cch.wb = smPut a.cch.wb k { e with failedAt := some (e.since + cnetLimit a e.since), stalled := true } ∧
          b.rb (rk 0x04 0x010) 3 = true) ∧
      (∀ f g, e.failedAt = some f → f + 1024 ≤ T → hostAgent a = some g →
        ∃ b o, exec (.wbStall t k) s = .next b ∧ b.cch.wb = smPut a.cch.wb k { e with since := T + 1, failedAt := none } ∧
          b.fab.out = a.fab.out ++ [o] ∧ o.vc = 0 ∧ o.readyAt = T + 1 ∧ hOpcode o.head = 0x06 ∧ hTxn o.head = wbTxn k ∧
          o.payload = lineFlits e.line)) ∧
    (smcOn a = true → a.rb (rk 0x09 0x070) 0 = true → limitAt a (rk 0x09 0x06C) a.ras.wdogAt ≤ wdogCount a →
      ∃ b, exec (.wdogExp t) s = .next b ∧ b.rb (rk 0x09 0x010) 8 = true ∧ b.pwr.smcReset = T + 16 ∧ b.ras.wdogAt = T ∧
        b.mbn.popped = [] ∧ b.mbs.popped = [] ∧ b.rf (rk 0x00 0x050) 3 0 = 8) ∧
    (∀ bt n, (k = 1 ∨ k = 3 ∨ k = 4 ∨ k = 5 ∨ k = 9) → headOf a k = some bt → smGet a.arb.headAt k = some n → n + waitLimit a n ≤ T →
      ∀ j, (bt.kind = .snapRead j ∨ bt.kind = .uncWrite j ∨ bt.kind = .push j) → getReq a j = some r → getTxn a j = none →
      ∃ b, exec (.grantTmo t k) s = .next b ∧ AnsweredReq b r nackTmo (T + 1) ∧ b.fab.reqs = smDel a.fab.reqs j ∧
        b.arb.queue = a.arb.queue.erase bt ∧ nth b.arb.wait k 0 = 0 ∧ b.rb (rk 0x0E 0x010) 0 = true)

/-- A decision of the arbiter starts the first head that fits, or none; a read at the controller's output is delivered to its request; a
vector is granted when all its adds find slots; a pull sends its next line; an engine starts the next atomic of its queue, and steals a bucket
when it is idle; a scrub or patrol read moves its index on; a bucket leaks; a counter at its top wraps, is logged, and freezes (06 R196, R197;
08 R247; 10 R276, R283, R284; 13 R356, R358-R360; 17 R456, R457; 18 R468). -/
def Obligations.GrantsReadsAndCounts : Prop :=
  ∀ (s : State) (t n : Nat),
    let a := advance s t
    let T := max s.now t
    (works a = true →
      (∀ c, schedOf a = some c → a.arb.lastDecision < T →
        match firstFit a c (holdRuns a c) (orderedHeads a) [] with
        | some (r, u, p) => ∃ b f, exec (.arbDecision t) s = .next b ∧ b.arb.lastDecision = T ∧ f ∈ b.thl.flights ∧ f.kind = u.kind ∧
            f.line = burstLine a u ∧ f.readAt = p.readAt ∧ f.writeAt = p.writeAt ∧ f.lastSlot = p.last ∧ nth b.arb.wait r 0 = 0 ∧
            a.frm.unsched + p.n ≤ b.frm.unsched
        | none => ∃ b, exec (.arbDecision t) s = .next b ∧ b.arb.lastDecision = T ∧ b.thl = a.thl ∧ b.frm = a.frm) ∧
      (∀ f k r x, a.thl.flights.filter (fun f => f.writeAt.isNone && f.sample.isSome && decide (f.outAt ≤ T)) = [f] → f.kind = .snapRead k →
        f.twin = none → f.sampleB = none → f.sample = some x → getReq a k = some r → getTxn a k = none → a.rf (rk 0x03 0x04C) 5 0 = 0 →
        ∃ b, exec (.thlReadComplete t) s = .next b ∧ b.thl.flights = a.thl.flights.erase f ∧ b.fab.reqs = smDel a.fab.reqs k ∧
          AnsweredData b r.head (if (readFlits x.line r.head).2 then okPoison else ok) (readFlits x.line r.head).1 (max (T + 3) (r.arrived + 14))) ∧
      (∀ k r g xs, a.acc.vacc = [k] → getReq a k = some r → r.arrived + 7 ≤ T → r.progress ≤ T → quenchHides a r = false → getGroup a (vaccGroup r.head) = some g →
        let adds := vaccAddsOf r.head r.payload g.stats
        vaccSlots a (hSrc r.head) (adds.map (·.1)) (vaccLast a g) = some xs →
        ∃ b, exec (.vaccGrant t) s = .next b ∧ b.acc = { a.acc with
          vacc := [], adds := a.acc.adds ++ (adds.zip xs).map fun y => ⟨y.2, y.1.1, vaccGroup r.head, k, y.1.2.1, vaccFmt r.head, y.1.2.2.1, y.1.2.2.2⟩ } ∧
          sameRegsBut [] a b ∧ b.thl = a.thl ∧ getReq b k = some { r with progress := T }) ∧
      (∀ p r l u, n < 8 → wordsSound a → getPull a n = some p → getReq a p.slot = some r → p.out = 0 → p.ended = false → p.dropped = [] →
        decodeTurn a n = true →
        p.buf.find? (fun b => b.1 == p.unit) = some (p.unit, l, u) → p.sent < 4 * p.unit + 4 → p.startRow ≤ p.unit →
        ∃ b o, exec (.pullPacketSend t n) s = .next b ∧ b.fab.out.getLast? = some o ∧ o.vc = 3 ∧ o.pull = some n ∧ o.readyAt = T + 1 ∧
          hOpcode o.head = 0x58 ∧ hTxn o.head = hTxn r.head ∧ hDst o.head = hSrc r.head ∧ o.payload = (lineFlits l).drop (p.sent % 4) ∧
          bit o.head 181 = decide (p.unit + 1 = p.lines) ∧ ∃ x, getPull b n = some x ∧ x.unit = p.unit + 1) ∧
      (∀ k rest r, n < nBanks s.straps.build → engReady a = true → bankTaken a n = false → smGet a.upd.started n ≠ some T →
        engQueue a n = k :: rest → getReq a k = some r → r.arrived + 7 ≤ T → (reqLine r.head).1 = false → getTxn a k = none →
        (∀ g, r.rgn = some g → g.mode = 2) → (∀ f ∈ a.upd.flights, f.pos = n → f.phys = physOf a n ∧ f.miss = 0) →
        ∃ b, exec (.atomicExec t n) s = .next b ∧ b.upd.flights = a.upd.flights ++ [⟨n, physOf a n, k, (reqLine r.head).2, 0⟩] ∧
          engQueue b n = rest.filter (· != k) ∧ smGet b.upd.started n = some T ∧ sameRegsBut [] a b ∧ b.thl = a.thl ∧
          b.arb.queue = a.arb.queue ++
            [{ rid := 3, kind := .atomic k, line := (reqLine r.head).2, reads := true, writes := true, since := T + 1
               twin := regionTwin r.rgn (reqLine r.head).2 }]) ∧
      (∀ v w, n < nBanks s.straps.build → a.rb (rk 0x06 0x040) 0 = true → a.upd.stolen ≠ some T →
        let nb := nBanks s.straps.build
        let most := (List.range nb).foldl (fun m q => max m (engQueue a q).length) 0
        let bk := fun slot => match getReq a slot with | some r => bucketOf (reqLine r.head).2 | none => 64
        (List.range nb).find? (fun q => (engQueue a q).isEmpty && (posFlights a q).isEmpty) = some n → a.rf (rk 0x06 0x040) 5 2 ≤ most →
        (List.range nb).find? (fun q => (engQueue a q).length == most) = some v →
        ((engQueue a v).map bk).find? (fun y => !((posFlights a v).map fun f => bucketOf f.line).contains y) = some w → w < 64 →
        ∃ b, exec (.bucketSteal t n) s = .next b ∧ bucketOwner b w = n ∧ b.upd.stolen = some T ∧ engQueue b n = (engQueue a v).filter (fun k => bk k == w) ∧
          engQueue b v = (engQueue a v).filter (fun k => bk k != w) ∧ b.rg (rk 0x06 0x0A0) = a.rg (rk 0x06 0x0A0) + 1 ∧ b.thl = a.thl) ∧
      (a.rb (rk 0x09 0x074) 0 = true → initBusy a = false → a.ras.scrubs < a.rf (rk 0x09 0x074) 11 4 →
        let k := a.rf (rk 0x09 0x078) 19 0
        let x := a.rgFld (rk 0x09 0x078) 20 20 0
        ((thallusAwake a && t9Awake a) = false → exec (.scrubRead t) s = .next (ended s t (a.rgFld (rk 0x09 0x078) 20 20 1))) ∧
        (∀ c p, (thallusAwake a && t9Awake a) = true → inShadow x (lineOfLap k) = false → schedOf x = some c →
          planOf x c { rid := 10, kind := .scrub, line := lineOfLap k, reads := true, writes := false, since := T, twin := mirrorTwin x (lineOfLap k) }
            (T + 1) = some p → (T ≤ a.arb.lastDecision ∨ firstFit x c (holdRuns x c) (orderedHeads x) [] = none) →
          planFree x c p ((holdRuns x c).flatMap (·.2)) = true → planPaid x c p = true → ∃ b, exec (.scrubRead t) s = .next b ∧ b.ras.scrubs = a.ras.scrubs + 1 ∧
            b.rf (rk 0x09 0x078) 19 0 = (k + 1) % 2 ^ 20)) ∧
      (let k := rk 0x09 0x088
       let step := a.rf k 8 1 * 1024
       wordsSound a → a.rb k 0 = true → a.ras.patrolAt + step ≤ T → exec (.patrolRead t) s = .next (ended s t
         { (a.rgFld k 24 16 ((a.rf k 24 16 + 1) % 512)) with ras := { a.ras with patrolAt := T - (T - a.ras.patrolAt) % step } })) ∧
      (let k := rk 0x09 (0x104 + 8 * n)
       let m := (T - leakStart a n) / leakPeriod a n
       n < nDomains s.straps.build → 0 < m → ∃ b, exec (.leakTick t n) s = .next b ∧ b.rf k 15 0 = a.rf k 15 0 - m ∧ b.rf k 31 16 = a.rf k 31 16 ∧
         sameRegsBut [k] a b ∧ leakStart b n = leakStart a n + m * leakPeriod a n)) ∧
    (n < 8 → exec (.cntOvf t n) s = .next (ended s t a)) ∧
    (∀ k, n < 8 → 2 ^ 48 ≤ pmuVal a n + k → pmuVal (pmuAdd a n k) n = (pmuVal a n + k) % 2 ^ 48 ∧ (pmuAdd a n k).rb (rk 0x0F 0x010) n = true ∧
      (a.rb (rk 0x0F 0x040) 2 = true → pmuFrozen (pmuAdd a n k) = true))

/-- A cold reset clears the machine and holds it until PORST_N is released, when the good-slice map tells whether it starts; a warm reset
keeps the lines and clears the rest of LOGIC; either sequence starts at its release. A domain that has switched is on or off. A tier wakes,
sleeps and loses its contents in its turn, fails when its wake takes too long, and is asked for and started by the governor (16 R426-R434,
R437, R440-R443). -/
def Obligations.ResetsAndWakesTakeTheirCourse : Prop :=
  ∀ (s : State) (t n : Nat),
    let a := advance s t
    let T := max s.now t
    (∃ b, exec (.porstNAssert t) s = .next b ∧ b.pwr.porst = true ∧ b.pwr.logic = false ∧ b.regs = [] ∧ b.fab.reqs = [] ∧ b.fab.out = [] ∧
      b.thl.cells = [] ∧ b.frm.mem = [] ∧ b.pwr.tiers = List.replicate 10 (TierSt.rest .off false) ∧ b.now = T ∧ b.pending = s.pending) ∧
    (∀ good : BitVec 256, a.pwr.porst = true → a.pwr.ordered = none →
      ∃ b, exec (.porstNRelease t good) s = .next b ∧ b.pwr.porst = false ∧ b.pwr.seq0 = T ∧ b.straps.good = good ∧
        b.straps.fused = !good.getLsbD s.straps.tile ∧ b.straps.chip = s.straps.chip ∧ b.straps.tile = s.straps.tile ∧
        if good.getLsbD s.straps.tile then b.pwr.logic = true ∧ b.pwr.eng = .on ∧ b.pwr.smc = .on ∧ b.pwr.queue = List.range 9 ∧
          b.cch.initAt = some T ∧ b.dir.initAt = some T ∧ b.acc.initAt = some T ∧ b.frm.frame0 = some T
        else b.pwr.logic = a.pwr.logic) ∧
    (a.pwr.porst = false → a.straps.fused = false → a.pwr.wrst = false → ∃ b, exec (.wrstNAssert t) s = .next b ∧ b.pwr.wrst = true ∧
      if a.pwr.logic then b.fab.reqs = [] ∧ b.fab.out = [] ∧ b.frm.state = .idle ∧ b.frm.mem = [] ∧ b.cch.ways = [] ∧ b.dir.ents = [] ∧
        (fsClass (lastWrites a) ≠ 1 → b.thl.cells = (lastWrites a).thl.cells ∧ b.thl.base = (lastWrites a).thl.base ∧
          b.thl.initDue = ((lastWrites a).thl.initDue || (lastWrites a).thl.initAt.isSome)) ∧
        (∀ k, isAon k = false → isTrcKept k = false → b.rg k = regReset s.straps.build k)
      else b.thl = a.thl ∧ b.regs = a.regs) ∧
    (a.pwr.wrst = true → a.pwr.ordered = none → a.pwr.porst = false → ∃ b, exec (.wrstNRelease t) s = .next b ∧ b.pwr.wrst = false ∧
      if a.pwr.logic then b.pwr.logic = true ∧ b.pwr.seq0 = T ∧ b.cch.initAt = some T ∧ b.dir.initAt = some T ∧ b.rf (rk 0x00 0x050) 3 0 = 3
      else b.pwr.logicUp = (if a.pwr.retained ∧ a.pwr.logicUp = none then some (T + 320, 3) else a.pwr.logicUp)) ∧
    (∀ k x r, a.pwr.ordered = some (k, x, r, true) → r ≤ T → ∃ b, exec (.orderedResetRelease t) s = .next b ∧ b.pwr.ordered = none ∧
      match k with
      | .cold => b.pwr.porst = false ∧ b.pwr.seq0 = r + 1 ∧ b.rf (rk 0x00 0x050) 3 0 = 2
      | .warm =>
        if a.pwr.logic then b.pwr.logic = true ∧ b.pwr.seq0 = r + 1 ∧ b.cch.initAt = some (r + 1) ∧ b.rf (rk 0x00 0x050) 3 0 = 4
        else b.pwr.wrst = false ∧ b.pwr.logicUp = if a.pwr.retained ∧ a.pwr.logicUp = none then some (T + 320, 4) else a.pwr.logicUp
      | _ => b.regs = a.regs ∧ b.thl = a.thl ∧ b.frm = a.frm) ∧
    (a.pwr.porst = false → a.straps.fused = false →
      (∃ b, exec (.domainSwitchDone t) s = .next b ∧
        (∀ u, a.pwr.eng = .rising u → u ≤ T → b.pwr.eng = .on ∧ b.acc.initAt = some T ∧ b.acc.ready = false ∧ b.acc.groups = []) ∧
        (∀ u, a.pwr.eng = .falling u → u ≤ T → b.pwr.eng = .off ∧ b.upd.queues = [] ∧ b.upd.flights = [] ∧ b.acc.initAt = none) ∧
        (∀ u, a.pwr.smc = .rising u → u ≤ T → b.pwr.smc = .on ∧ b.ras.wdogAt = T) ∧
        (∀ u, a.pwr.smc = .falling u → u ≤ T →
          b.pwr.smc = (if a.rb (rk 0x0B 0x040) 1 then .rising (T + 1600) else .off) ∧ b.mbn.inMsgs = [] ∧ b.mbs.outMsgs = [])) ∧
      (n < 10 → a.pwr.tiers.length = 10 →
        let x := tier a n
        (x.st = .waking → x.start < T → T < x.start + x.tmo → ∃ b, exec (.tierWakeDone t n) s = .next b ∧ b.thl = a.thl ∧
          (tier b n).st = (if x.thenSleep then .entering else .awake) ∧ ∀ j, j ≠ n → tier b j = tier a j) ∧
        (x.st = .waking → x.start + x.tmo ≤ T → tierFailed a n = false → ∃ b, exec (.wakeTmo t n) s = .next b ∧ (tier b n).st = .failed ∧
          tierFailed b n = true ∧ b.rb (rk 0x0B 0x010) 0 = true) ∧
        (x.st = .entering → x.start < T → a.thl.flights = [] → ∃ b, exec (.tierSleepDone t n) s = .next b ∧
          (tier b n).st = (if x.thenOff then .off else if x.thenQueue then .queued else .sleep) ∧ (∀ j, j ≠ n → tier b j = tier a j) ∧
          (x.thenOff = false → b.thl = a.thl) ∧ (x.thenOff = true → nth b.thl.base n 0 = 0)) ∧
        (∀ rest, a.straps.tokenEn = false → a.pwr.queue = n :: rest →
          (∀ z, a.pwr.lastStart = some z → z + wakeSpacing a ≤ T) → ∃ b, exec (.wakeStart t) s = .next b ∧ b.pwr.queue = rest ∧
            b.pwr.lastStart = some T ∧ (tier b n).st = .waking ∧ (tier b n).start = T ∧ b.thl = a.thl)) ∧
      (a.straps.tokenEn = true → a.pwr.queue ≠ [] → a.pwr.tokens = 0 → a.pwr.req = none →
        let m := min a.pwr.queue.length 10
        exec (.wakeStart t) s = .next (ended s t { a with pwr := { a.pwr with req := some (m, T, 0, false) }
                                                          fab := { a.fab with sOut := a.fab.sOut ++ [⟨5, a.straps.tile + m * 256, T⟩] } })) ∧
      (∀ m z r w, a.pwr.req = some (m, z, r, w) → a.pwr.queue ≠ [] → z + a.rf (rk 0x0B 0x058) 7 0 * 1024 ≤ T →
        let lim := a.rf (rk 0x0B 0x058) 15 8
        let r1 := min (r + 1) 255
        let hit := decide (lim ≠ 0) && decide (lim ≤ r1) && !w
        ∃ b, exec (.wakeReqResend t) s = .next b ∧ b.pwr.req = some (min a.pwr.queue.length 10, T, r1, w || hit) ∧
          b.fab.sOut = a.fab.sOut ++ [⟨5, a.straps.tile + min a.pwr.queue.length 10 * 256, T⟩] ∧ b.thl = a.thl ∧
          (hit = true → b.rb (rk 0x0B 0x010) 1 = true)))

/-- While the SMC runs it pops the oldest message, pushes outbound words one by one, which become visible with the last of a message, and
acknowledges what it has popped; VERSION agrees the interface and PING returns its word, FRAME_COPY opens the half, pulls a program image as a
requester would, has it validated and replies, and a repeated SEQ is answered with the reply kept; an idle lock expires; and Torif remaps a
row, a lane or an engine, retires a way, declares a tier failed or starts a rebuild when the records call for it (14 R392; 15 R395, R401, R402,
R404, R409, R416-R419). -/
def Obligations.TorifServesItsMailboxes : Prop :=
  ∀ (s : State) (t : Nat) (secure : Bool),
    let a := advance s t
    let T := max s.now t
    let c := mbx a secure
    (works a = true → ∀ o n, c.lock = some (o, n) → a.rf (rk (mbxPage secure) 0x044) 23 8 ≠ 0 →
      n + a.rf (rk (mbxPage secure) 0x044) 23 8 * 1024 ≤ T → ∃ b, exec (.lockExpired t secure) s = .next b ∧ (mbx b secure).lock = none ∧
        b.rb (rk (mbxPage secure) 0x010) 1 = true ∧ mbx b (!secure) = mbx a (!secure) ∧ b.thl = a.thl) ∧
    (works a = true → smcRuns a = true →
      (c.inMsgs = [] → exec (.smcPopInbound t secure) s = .next (ended s t (setMbx a secure { c with ring := false }))) ∧
      (∀ m rest, wordsSound a → c.inMsgs = m :: rest → torifKnows (mbxSvc m) = true → (∀ x ∈ c.popped, torifKnows (mbxSvc x) = true) →
        exec (.smcPopInbound t secure) s = .next (ended s t (setMbx a secure
          { c with ring := false, inMsgs := rest, popped := c.popped ++ [{ m with bad := false }] }))) ∧
      (∀ w ws, c.outPart = none → fld w 15 11 = 0 → fld w 10 8 = ws.length → outWords c + ws.length + 1 ≤ 8 →
        ∃ b, exec (.smcPushOutbound t secure (w :: ws)) s = .next b ∧ (mbx b secure).outLast = fld w 7 0 ∧ (mbx b secure).outPart = none ∧
          mbx b (!secure) = mbx a (!secure) ∧ ∃ m, (mbx b secure).outMsgs = c.outMsgs ++ [m] ∧ m.words.map (·.2) = w :: ws) ∧
      (∀ w, c.outPart = none → (fld w 15 11 ≠ 0 ∨ 8 < outWords c + fld w 10 8 + 1) →
        exec (.smcPushOutbound t secure [w]) s = .next (ended s t a)) ∧
      (∀ w m, c.outPart = some m → ∃ b, exec (.smcPushOutbound t secure [w]) s = .next b ∧ mbx b (!secure) = mbx a (!secure) ∧
        let m1 : MbxMsg := { m with words := m.words ++ [(c.outWr, w)] }
        mbx b secure = if m1.words.length = m.total
          then { c with outWr := (c.outWr + 1) % 8, outPart := none, outMsgs := c.outMsgs ++ [m1], outLast := m.src.1 }
          else { c with outWr := (c.outWr + 1) % 8, outPart := some m1 }) ∧
      (∀ m, c.popped.find? (fun m => !m.acked) = some m → ∃ b, exec (.smcAckInbound t secure) s = .next b ∧
        mbx b secure = { c with popped := markAcked c.popped, inAcked := fld (mbxHead m) 7 0 } ∧ b.rb (rk (mbxPage secure) 0x054) 10 = true ∧
        b.thl = a.thl ∧ if m.src.1 = 0 ∨ m.src.1 = 2 then ∃ o, b.fab.out = a.fab.out ++ [o] ∧ o.vc = 0 ∧ hOpcode o.head = 0x39 ∧
          hDst o.head = hSrc (mkHead 0x39 0 0 0 m.src (own a) 0 0) ∧ hParam o.head = 0xE002 + (if secure then 0x100 else 0) else b.fab = a.fab) ∧
      (∀ m, wordsSound a → torifNext c = some m → m.bad = false → c.outPart = none → storedReply c m = none →
        (mbxSvc m = 1 → m.total = 2 → fld (mbxWord m 0) 7 0 ≠ 0 → outWords c + 4 ≤ 8 → ∃ b x, exec (.version t secure) s = .next b ∧
          (mbx b secure).agreed = true ∧ (mbx b secure).popped = markReplied c.popped ∧ (mbx b secure).outMsgs = c.outMsgs ++ [x] ∧ x.total = 4 ∧
          (x.words.map (·.2))[1]? = some (replyWord m 0 (mkFld 15 8 1))) ∧
        (mbxSvc m = 2 → c.agreed = true → m.total = 2 → outWords c + 3 ≤ 8 → ∃ b x, exec (.ping t secure) s = .next b ∧
          (mbx b secure).popped = markReplied c.popped ∧ (mbx b secure).outMsgs = c.outMsgs ++ [x] ∧ x.total = 3 ∧
          (x.words.map (·.2)).drop 1 = [replyWord m 0 0, mbxWord m 0]) ∧
        (mbxSvc m = 0x10 → c.agreed = true → m.total = 3 →
          (a.frm.copy = none → a.frm.inact ≠ .validating →
            let x := (loadOpenOp a).1
            let n := fld (mbxWord m 1) 9 0 + 1
            let cp : CopySt := { secure := secure, left := 8 * n, code := none, checking := false }
            exec (.frameCopy t secure) s = .next (ended s t (requestIn { x with frm := { x.frm with copy := some cp } }
              (mkPacket 0 (copyHead x secure (fld (mbxWord m 0) 19 0) (cdiv (32 * n) 128)) [])))) ∧
          (a.frm.copy = none → a.frm.inact = .validating → outWords c + 2 ≤ 8 → ∃ b x, exec (.frameCopy t secure) s = .next b ∧ b.frm = a.frm ∧
            (mbx b secure).outMsgs = c.outMsgs ++ [x] ∧ (x.words.map (·.2)).drop 1 = [replyWord m 4 0]) ∧
          (∀ cp, a.frm.copy = some cp →
            (cp.secure ≠ secure ∨ cp.code = none → exec (.frameCopy t secure) s = .next (ended s t a)) ∧
            (cp.secure = secure → ∀ n, cp.code = some n →
              (1 < n → outWords c + 2 ≤ 8 → ∃ b x, exec (.frameCopy t secure) s = .next b ∧ b.frm.copy = none ∧
                (mbx b secure).outMsgs = c.outMsgs ++ [x] ∧ (x.words.map (·.2)).drop 1 = [replyWord m 5 (mkFld 23 16 n)]) ∧
              (n ≤ 1 → cp.checking = false → let y := (loadValidateOp a secure).1
                exec (.frameCopy t secure) s = .next (ended s t { y with frm := { y.frm with copy := some { cp with checking := true } } })) ∧
              (n ≤ 1 → cp.checking = true → a.frm.inact = .validating → exec (.frameCopy t secure) s = .next (ended s t a)) ∧
              (n ≤ 1 → cp.checking = true → a.frm.inact ≠ .validating → outWords c + 3 ≤ 8 → ∃ b x, exec (.frameCopy t secure) s = .next b ∧
                b.frm.copy = none ∧ (mbx b secure).outMsgs = c.outMsgs ++ [x] ∧ let v := a.rg (rk 0x01 0x064)
                (x.words.map (·.2)).drop 1 = [replyWord m (if fld v 7 0 = 0 then 0 else 5) 0, v]))))) ∧
      (∀ m v ws, wordsSound a → torifNext c = some m → m.bad = false → c.outPart = none → storedReply c m = some (v, ws) →
        outWords c + ws.length + 1 ≤ 8 →
        ∀ r ∈ [(Instr.version t secure, 1), (Instr.ping t secure, 2), (Instr.frameCopy t secure, 0x10)], mbxSvc m = r.2 →
        ∃ b x, exec r.1 s = .next b ∧ (mbx b secure).outMsgs = c.outMsgs ++ [x] ∧ (x.words.map (·.2)).drop 1 = ws ∧ b.frm = a.frm)) ∧
    (works a = true → smcRuns a = true →
      (∀ i bank row n k, i < 10 → badRow a i = some (bank, row) → freeSorus a i bank = some (n, k) → a.spr.pending = false →
        ∃ b, exec (.torifRetire t (.row i)) s = .next b ∧ smGetD b.spr.camShd (i * 64 + n) 0 = BitVec.ofNat 32 (0x80000000 + row + bank * 1024 + k * 16384) ∧
          b.spr.pending = true ∧ b.spr.checking = true ∧ b.spr.armed = some ⟨T, b.spr.camShd, b.spr.laneShd, 0, none⟩ ∧
          b.rb (rk 0x09 (0x104 + 8 * i)) 31 = false) ∧
      (∀ i bank row, i < 10 → badRow a i = some (bank, row) → freeSorus a i bank = none → a.rb (rk 0x0A 0x064) 16 = true → t9Free a = true →
        tierFailed a i = false → ∃ b, exec (.torifRetire t (.tier i)) s = .next b ∧ tierFailed b i = true) ∧
      (∀ i, i < 9 → tierFailed a i = true → a.rb (rk 0x0A 0x064) 17 = true → t9Free a = true → rebuildMay a i = true →
        ∃ b, exec (.torifRetire t (.rebuild i)) s = .next b ∧
          b.spr = { a.spr with rebuild := if (tier a 9).st = .awake then .running else .waking, pos := i, front := 0, serves := false }) ∧
      (∀ e q, e < nEngines s.straps.build → ovfReached a (20 + e) (policy a 7 4) = true → engOn a = true → a.upd.mapAt = none →
        (List.range (nEngines s.straps.build)).find? (fun q => !((List.range (nBanks s.straps.build)).map (actEng a)).contains q &&
          !a.rb (rk 0x06 0x068) q && q != e) = some q →
        ∃ b, exec (.torifRetire t (.engine e)) s = .next b ∧ b.rb (rk 0x06 0x068) e = true ∧ b.rb (rk 0x09 (0x104 + 8 * (20 + e))) 31 = false ∧
          ∀ p, p < nBanks s.straps.build →
            b.rf (rk 0x06 (0x050 + 4 * (p / 6))) (5 * (p % 6) + 4) (5 * (p % 6)) = if actEng a p = e then q else actEng a p) ∧
      (∀ w, w < 9 → badWay a 0x0D4 [14] = some w → popCount 9 (a.rf (rk 0x05 0x054) 8 0 ||| 2 ^ w) ≤ 5 →
        ∃ b, exec (.torifRetire t .dirWay) s = .next b ∧ b.rb (rk 0x05 0x054) w = true ∧ b.rg (rk 0x0A 0x0D4) = 0 ∧
          b.rb (rk 0x09 (0x104 + 8 * 14)) 31 = false) ∧
      (∀ w, a.spr.wayOut = none → badWay a 0x0D8 [12, 13] = some w → ∃ b, exec (.torifRetire t .cacheWay) s = .next b ∧
        b.spr.wayOut = some (w, 0, false) ∧ b.cch = a.cch ∧ ∀ i, i < 4 → b.rb (rk 0x04 (0x04C + 4 * i)) w = false) ∧
      (∀ w set, a.spr.wayOut = some (w, set, false) → set < 512 → exec (.torifRetire t .cacheWay) s = .next (ended s t
        (requestIn { a with spr := { a.spr with wayOut := some (w, set, true) } } (mkPacket 0 (clinvHead a set w) [])))) ∧
      (∀ w set, a.spr.wayOut = some (w, set, false) → 512 ≤ set → ∃ b, exec (.torifRetire t .cacheWay) s = .next b ∧ b.spr.wayOut = none ∧
        b.rg (rk 0x0A 0x0D8) = 0) ∧
      (∀ w set, a.spr.wayOut = some (w, set, true) → exec (.torifRetire t .cacheWay) s = .next (ended s t a)) ∧
      (let w := a.rg (rk 0x0A 0x068)
       bit w 31 = true → policy a 15 12 ≠ 0 → policy a 15 12 ≤ fld w 23 16 → ∃ b, exec (.torifRetire t .lane) s = .next b ∧
         match freeSpare a 15 with
         | none => failed b = true ∧ b.rf (rk 0x09 0x054) 3 1 = 7
         | some n => a.spr.pending = false → b.rg (rk 0x0A 0x068) = 0 ∧ fld (smGetD b.spr.laneShd n 0) 10 0 = fld w 10 0 ∧
             bit (smGetD b.spr.laneShd n 0) 15 = true ∧ b.spr.armed = some ⟨T, b.spr.camShd, b.spr.laneShd, 0, none⟩) ∧
      (∀ l, retireNames s.straps.build (.egressLane l) = true →
        (policy a 15 12 = 0 → exec (.torifRetire t (.egressLane l)) s = .next (ended s t a)) ∧
        (policy a 15 12 ≠ 0 → ∃ b, exec (.torifRetire t (.egressLane l)) s = .next b ∧
          match freeSpare a 31 with
          | none => failed b = true ∧ b.rf (rk 0x09 0x054) 3 1 = 7
          | some n => a.spr.pending = false → fld (smGetD b.spr.laneShd n 0) 26 16 = l ∧ bit (smGetD b.spr.laneShd n 0) 31 = true ∧
              b.spr.armed = some ⟨T, b.spr.camShd, b.spr.laneShd, 0, none⟩)))
end

