-- ==== Sys2Proof/Laws/Bits.lean ====
section
/-!
SUPPORT. Laws of bit fields: what `fld`, `bit`, `mkFld` and `setFld` read of each other.
-/

namespace Sys2Proof.Machine

/-- A field is below its power of two. -/
theorem fld_lt {n : Nat} (w : BitVec n) (hi lo : Nat) : fld w hi lo < 2 ^ (hi + 1 - lo) := Nat.mod_lt _ (Nat.two_pow_pos _)

/-- Bits of a field are bits of the word. -/
theorem testBit_fld {n : Nat} (w : BitVec n) (hi lo i : Nat) :
    (fld w hi lo).testBit i = (decide (i < hi + 1 - lo) && bit w (lo + i)) := by
  simp [fld, bit, Nat.testBit_mod_two_pow, Nat.testBit_shiftRight, BitVec.testBit_toNat]

/-- A bit read as a field of one bit. -/
theorem fld_one {n : Nat} (w : BitVec n) (i : Nat) : fld w i i = b2n (bit w i) := by
  have h : fld w i i < 2 := by have := fld_lt w i i; simpa using this
  have hb := testBit_fld w i i 0
  simp only [Nat.add_zero] at hb
  have h1 : fld w i i = 0 ∨ fld w i i = 1 := by omega
  rcases h1 with h0 | h0 <;> rw [h0] at hb ⊢ <;> simp at hb <;> simp [b2n, hb]

/-- The number that a word with a field replaced has. -/
theorem toNat_setFld {n : Nat} (w : BitVec n) (hi lo v : Nat) (h : lo ≤ hi) (hn : hi < n) :
    (setFld w hi lo v).toNat
      = 2 ^ (hi + 1) * (w.toNat / 2 ^ (hi + 1)) + (2 ^ lo * (v % 2 ^ (hi + 1 - lo)) + w.toNat % 2 ^ lo) := by
  have hk : 2 ^ lo * 2 ^ (hi + 1 - lo) = 2 ^ (hi + 1) := by rw [← Nat.pow_add]; congr 1; omega
  have hw := w.isLt
  have hF : fld w hi lo = w.toNat / 2 ^ lo % 2 ^ (hi + 1 - lo) := by simp [fld, Nat.shiftRight_eq_div_pow]
  have e1 := Nat.div_add_mod w.toNat (2 ^ lo)
  have e2 := Nat.div_add_mod (w.toNat / 2 ^ lo) (2 ^ (hi + 1 - lo))
  have e3 : w.toNat / 2 ^ lo / 2 ^ (hi + 1 - lo) = w.toNat / 2 ^ (hi + 1) := by rw [Nat.div_div_eq_div_mul, hk]
  rw [e3] at e2
  rw [← hF] at e2
  have hB := Nat.mod_lt w.toNat (Nat.two_pow_pos lo)
  have hV := Nat.mod_lt v (Nat.two_pow_pos (hi + 1 - lo))
  have hFl := fld_lt w hi lo
  have eW : w.toNat = 2 ^ (hi + 1) * (w.toNat / 2 ^ (hi + 1)) + (2 ^ lo * fld w hi lo + w.toNat % 2 ^ lo) := by
    have e4 := e1
    rw [← e2, Nat.mul_add, ← Nat.mul_assoc, hk] at e4
    omega
  have hlow : ∀ x, x < 2 ^ (hi + 1 - lo) → 2 ^ lo * x + w.toNat % 2 ^ lo < 2 ^ (hi + 1) := by
    intro x hx
    calc 2 ^ lo * x + w.toNat % 2 ^ lo < 2 ^ lo * x + 2 ^ lo := by omega
      _ = 2 ^ lo * (x + 1) := by rw [Nat.mul_add, Nat.mul_one]
      _ ≤ 2 ^ lo * 2 ^ (hi + 1 - lo) := Nat.mul_le_mul_left _ hx
      _ = 2 ^ (hi + 1) := hk
  have hA : w.toNat / 2 ^ (hi + 1) < 2 ^ (n - (hi + 1)) := by
    apply Nat.div_lt_of_lt_mul
    rw [← Nat.pow_add]
    have : hi + 1 + (n - (hi + 1)) = n := by omega
    rwa [this]
  have hbig : 2 ^ (hi + 1) * (w.toNat / 2 ^ (hi + 1)) + (2 ^ lo * (v % 2 ^ (hi + 1 - lo)) + w.toNat % 2 ^ lo) < 2 ^ n := by
    have h1 := hlow _ hV
    calc _ < 2 ^ (hi + 1) * (w.toNat / 2 ^ (hi + 1)) + 2 ^ (hi + 1) := by omega
      _ = 2 ^ (hi + 1) * (w.toNat / 2 ^ (hi + 1) + 1) := by rw [Nat.mul_add, Nat.mul_one]
      _ ≤ 2 ^ (hi + 1) * 2 ^ (n - (hi + 1)) := Nat.mul_le_mul_left _ hA
      _ = 2 ^ n := by rw [← Nat.pow_add]; congr 1; omega
  have eS : w.toNat - fld w hi lo * 2 ^ lo + v % 2 ^ (hi + 1 - lo) * 2 ^ lo
      = 2 ^ (hi + 1) * (w.toNat / 2 ^ (hi + 1)) + (2 ^ lo * (v % 2 ^ (hi + 1 - lo)) + w.toNat % 2 ^ lo) := by
    have := Nat.mul_comm (fld w hi lo) (2 ^ lo)
    have := Nat.mul_comm (v % 2 ^ (hi + 1 - lo)) (2 ^ lo)
    omega
  simp only [setFld, BitVec.toNat_ofNat]
  rw [eS, Nat.mod_eq_of_lt hbig]

/-- Bits of a word with a field replaced. -/
theorem bit_setFld {n : Nat} (w : BitVec n) (hi lo v i : Nat) (h : lo ≤ hi) (hn : hi < n) :
    bit (setFld w hi lo v) i = if lo ≤ i ∧ i ≤ hi then v.testBit (i - lo) else bit w i := by
  have hlow : 2 ^ lo * (v % 2 ^ (hi + 1 - lo)) + w.toNat % 2 ^ lo < 2 ^ (hi + 1) := by
    have hV := Nat.mod_lt v (Nat.two_pow_pos (hi + 1 - lo))
    have hB := Nat.mod_lt w.toNat (Nat.two_pow_pos lo)
    calc _ < 2 ^ lo * (v % 2 ^ (hi + 1 - lo)) + 2 ^ lo := by omega
      _ = 2 ^ lo * (v % 2 ^ (hi + 1 - lo) + 1) := by rw [Nat.mul_add, Nat.mul_one]
      _ ≤ 2 ^ lo * 2 ^ (hi + 1 - lo) := Nat.mul_le_mul_left _ hV
      _ = 2 ^ (hi + 1) := by rw [← Nat.pow_add]; congr 1; omega
  have hB := Nat.mod_lt w.toNat (Nat.two_pow_pos lo)
  simp only [bit, ← BitVec.testBit_toNat, toNat_setFld w hi lo v h hn]
  rw [Nat.testBit_two_pow_mul_add _ hlow, Nat.testBit_two_pow_mul_add _ hB]
  by_cases h1 : i < hi + 1
  · by_cases h2 : i < lo
    · simp [h1, h2, Nat.testBit_mod_two_pow, show ¬ lo ≤ i by omega]
    · have h3 : lo ≤ i ∧ i ≤ hi := by omega
      simp [h1, h2, h3, Nat.testBit_mod_two_pow, show i - lo < hi + 1 - lo by omega]
  · have h3 : ¬ (lo ≤ i ∧ i ≤ hi) := by omega
    simp only [h1, h3, if_false]
    rw [Nat.testBit_div_two_pow]
    congr 1
    omega

/-- Reading the field that was written. -/
theorem fld_setFld_same {n : Nat} (w : BitVec n) (hi lo v : Nat) (h : lo ≤ hi) (hn : hi < n) :
    fld (setFld w hi lo v) hi lo = v % 2 ^ (hi + 1 - lo) := by
  apply Nat.eq_of_testBit_eq
  intro i
  rw [testBit_fld, bit_setFld w hi lo v _ h hn, Nat.testBit_mod_two_pow]
  by_cases hi' : i < hi + 1 - lo
  · simp [hi', show lo + i ≤ hi by omega]
  · simp [hi']

/-- Reading a field beside the one that was written. -/
theorem fld_setFld_other {n : Nat} (w : BitVec n) (hi lo v hi' lo' : Nat) (h : lo ≤ hi) (hn : hi < n) (hd : hi' < lo ∨ hi < lo') :
    fld (setFld w hi lo v) hi' lo' = fld w hi' lo' := by
  apply Nat.eq_of_testBit_eq
  intro i
  rw [testBit_fld, testBit_fld, bit_setFld w hi lo v _ h hn]
  by_cases hi1 : i < hi' + 1 - lo'
  · rw [if_neg (by omega)]
  · simp [hi1]

/-- A field within the one that was written. -/
theorem fld_setFld_within {n : Nat} (w : BitVec n) (hi lo v hi' lo' : Nat) (h : lo ≤ hi) (hn : hi < n) (h1 : lo ≤ lo') (h2 : hi' ≤ hi) :
    fld (setFld w hi lo v) hi' lo' = (v / 2 ^ (lo' - lo)) % 2 ^ (hi' + 1 - lo') := by
  apply Nat.eq_of_testBit_eq
  intro i
  rw [testBit_fld, bit_setFld w hi lo v _ h hn, Nat.testBit_mod_two_pow, Nat.testBit_div_two_pow]
  by_cases hi1 : i < hi' + 1 - lo'
  · have : lo ≤ lo' + i ∧ lo' + i ≤ hi := by omega
    simp only [hi1, this, and_self, if_true, decide_true, Bool.true_and]
    congr 1
    omega
  · simp [hi1]

/-- Bits of a word made of one field. -/
theorem testBit_mkFld (hi lo v i : Nat) : (mkFld hi lo v).testBit i = (decide (lo ≤ i ∧ i < lo + (hi + 1 - lo)) && v.testBit (i - lo)) := by
  rw [mkFld, Nat.mul_comm, Nat.testBit_two_pow_mul]
  by_cases h : lo ≤ i
  · simp [h, Nat.testBit_mod_two_pow]
    congr 1
    simp; omega
  · simp [h]

/-- A word made of one field is below the next power of two. -/
theorem mkFld_lt (hi lo v : Nat) (h : lo ≤ hi + 1) : mkFld hi lo v < 2 ^ (hi + 1) := by
  have hV := Nat.mod_lt v (Nat.two_pow_pos (hi + 1 - lo))
  calc mkFld hi lo v < 2 ^ (hi + 1 - lo) * 2 ^ lo := Nat.mul_lt_mul_of_pos_right hV (Nat.two_pow_pos lo)
    _ = 2 ^ (hi + 1) := by rw [← Nat.pow_add]; congr 1; omega

end Sys2Proof.Machine
end

