-- ==== Sys2Proof/Laws/Sparse.lean ====
section
/-!
SUPPORT. Laws of sparse lists: reads after writes, and the canonical form (rising keys, no entry at its unlisted value) that every
operation on them keeps.
-/

namespace Sys2Proof.Machine

/-- Every key of the list is above k. -/
def smAbove {α : Type} (k : Nat) (m : List (Nat × α)) : Bool := m.all fun e => decide (k < e.1)

/-- In a rising list every later key is above the first. -/
theorem smSorted_cons {α : Type} (k : Nat) (v : α) (m : List (Nat × α)) :
    smSorted ((k, v) :: m) = (smAbove k m && smSorted m) := by
  induction m generalizing k v with
  | nil => simp [smSorted, smAbove]
  | cons x m ih =>
    obtain ⟨k', v'⟩ := x
    have h := ih k' v'
    simp only [smSorted, h, smAbove, List.all_cons]
    by_cases h1 : k < k'
    · simp only [h1, decide_true, Bool.true_and]
      by_cases h2 : (m.all fun e => decide (k' < e.1)) = true
      · have h3 : (m.all fun e => decide (k < e.1)) = true := by
          simp only [List.all_eq_true, decide_eq_true_eq] at h2 ⊢
          intro e he
          have := h2 e he
          omega
        simp [h2, h3]
      · simp [h2]
    · simp [h1]

/-- A list all of whose keys are above k does not list k. -/
theorem smGet_above {α : Type} (k : Nat) (m : List (Nat × α)) (h : smAbove k m = true) : smGet m k = none := by
  induction m with
  | nil => rfl
  | cons x m ih =>
    obtain ⟨k', v'⟩ := x
    simp only [smAbove, List.all_cons, Bool.and_eq_true, decide_eq_true_eq] at h
    rw [smGet, if_neg (by omega)]
    exact ih h.2

/-- Reading the key that was stored. -/
@[simp] theorem smGet_smPut_same {α : Type} (m : List (Nat × α)) (k : Nat) (v : α) : smGet (smPut m k v) k = some v := by
  induction m with
  | nil => simp [smPut, smGet]
  | cons x m ih =>
    obtain ⟨k', v'⟩ := x
    rw [smPut]
    split
    · simp [smGet]
    · split
      · simp [smGet]
      · rw [smGet, if_neg (by omega)]; exact ih

/-- Reading another key. -/
theorem smGet_smPut_other {α : Type} (m : List (Nat × α)) (k j : Nat) (v : α) (h : j ≠ k) : smGet (smPut m k v) j = smGet m j := by
  induction m with
  | nil => simp [smPut, smGet, show k ≠ j by omega]
  | cons x m ih =>
    obtain ⟨k', v'⟩ := x
    rw [smPut]
    split
    · rw [smGet, if_neg (by omega)]
    · split
      · rename_i h1; subst h1; rw [smGet, if_neg (by omega), smGet, if_neg (by omega)]
      · rw [smGet, smGet, ih]

/-- Reading another key than the one removed. -/
theorem smGet_smDel_other {α : Type} (m : List (Nat × α)) (k j : Nat) (h : j ≠ k) : smGet (smDel m k) j = smGet m j := by
  induction m with
  | nil => rfl
  | cons x m ih =>
    obtain ⟨k', v'⟩ := x
    rw [smDel]
    split
    · rename_i h1; subst h1; rw [smGet, if_neg (by omega)]; exact ih
    · rw [smGet, smGet, ih]

/-- The removed key is gone. -/
@[simp] theorem smGet_smDel_same {α : Type} (m : List (Nat × α)) (k : Nat) : smGet (smDel m k) k = none := by
  induction m with
  | nil => rfl
  | cons x m ih =>
    obtain ⟨k', v'⟩ := x
    rw [smDel]
    split
    · exact ih
    · rename_i h1; rw [smGet, if_neg h1]; exact ih

/-- Storing keeps a bound below every key. -/
theorem smAbove_smPut {α : Type} (m : List (Nat × α)) (a k : Nat) (v : α) (h : smAbove a m = true) (hk : a < k) :
    smAbove a (smPut m k v) = true := by
  induction m with
  | nil => simp [smPut, smAbove, hk]
  | cons x m ih =>
    obtain ⟨k', v'⟩ := x
    simp only [smAbove, List.all_cons, Bool.and_eq_true, decide_eq_true_eq] at h ih ⊢
    rw [smPut]
    split
    · simp only [List.all_cons, Bool.and_eq_true, decide_eq_true_eq]; exact ⟨hk, h⟩
    · split
      · simp only [List.all_cons, Bool.and_eq_true, decide_eq_true_eq]; exact ⟨hk, h.2⟩
      · simp only [List.all_cons, Bool.and_eq_true, decide_eq_true_eq]; exact ⟨h.1, ih h.2⟩

/-- Storing keeps the keys rising. -/
theorem smSorted_smPut {α : Type} (m : List (Nat × α)) (k : Nat) (v : α) (h : smSorted m = true) : smSorted (smPut m k v) = true := by
  induction m with
  | nil => rfl
  | cons x m ih =>
    obtain ⟨k', v'⟩ := x
    have h0 := h
    rw [smSorted_cons, Bool.and_eq_true] at h
    rw [smPut]
    split
    · rw [smSorted_cons, Bool.and_eq_true]
      refine ⟨?_, h0⟩
      have h1 := h.1
      simp only [smAbove, List.all_cons, List.all_eq_true, Bool.and_eq_true, decide_eq_true_eq] at h1 ⊢
      refine ⟨by omega, fun e he => ?_⟩
      have := h1 e he
      omega
    · split
      · rename_i h1; subst h1; rw [smSorted_cons, Bool.and_eq_true]; exact h
      · rw [smSorted_cons, Bool.and_eq_true]
        exact ⟨smAbove_smPut m k' k v h.1 (by omega), ih h.2⟩

/-- Removing keeps only entries of the list. -/
theorem mem_of_mem_smDel {α : Type} (m : List (Nat × α)) (k : Nat) (e : Nat × α) (h : e ∈ smDel m k) : e ∈ m := by
  induction m with
  | nil => simp [smDel] at h
  | cons x m ih =>
    obtain ⟨k', v'⟩ := x
    rw [smDel] at h
    split at h
    · exact List.mem_cons_of_mem _ (ih h)
    · rcases List.mem_cons.mp h with h | h
      · exact h ▸ List.mem_cons_self
      · exact List.mem_cons_of_mem _ (ih h)

/-- Every entry after storing is the one stored or was there. -/
theorem mem_smPut {α : Type} (m : List (Nat × α)) (k : Nat) (v : α) (e : Nat × α) (h : e ∈ smPut m k v) : e = (k, v) ∨ e ∈ m := by
  induction m with
  | nil => simp [smPut] at h; exact .inl h
  | cons x m ih =>
    obtain ⟨k', v'⟩ := x
    rw [smPut] at h
    split at h
    · exact List.mem_cons.mp h
    · split at h
      · rcases List.mem_cons.mp h with h | h
        · exact .inl h
        · exact .inr (List.mem_cons_of_mem _ h)
      · rcases List.mem_cons.mp h with h | h
        · exact .inr (h ▸ List.mem_cons_self)
        · rcases ih h with h | h
          · exact .inl h
          · exact .inr (List.mem_cons_of_mem _ h)

/-- Removing keeps the keys rising. -/
theorem smSorted_smDel {α : Type} (m : List (Nat × α)) (k : Nat) (h : smSorted m = true) : smSorted (smDel m k) = true := by
  induction m with
  | nil => rfl
  | cons x m ih =>
    obtain ⟨k', v'⟩ := x
    rw [smSorted_cons, Bool.and_eq_true] at h
    rw [smDel]
    split
    · exact ih h.2
    · rw [smSorted_cons, Bool.and_eq_true]
      refine ⟨?_, ih h.2⟩
      have h1 := h.1
      simp only [smAbove, List.all_eq_true, decide_eq_true_eq] at h1 ⊢
      exact fun e he => h1 e (mem_of_mem_smDel m k e he)

/-- A part of a rising list rises. -/
theorem smSorted_filter {α : Type} (m : List (Nat × α)) (p : Nat × α → Bool) (h : smSorted m = true) : smSorted (m.filter p) = true := by
  induction m with
  | nil => rfl
  | cons x m ih =>
    obtain ⟨k', v'⟩ := x
    rw [smSorted_cons, Bool.and_eq_true] at h
    rw [List.filter_cons]
    split
    · rw [smSorted_cons, Bool.and_eq_true]
      refine ⟨?_, ih h.2⟩
      have h1 := h.1
      simp only [smAbove, List.all_eq_true, decide_eq_true_eq] at h1 ⊢
      exact fun e he => h1 e ((List.mem_filter.mp he).1)
    · exact ih h.2

/-- Reading the key that was set, where an unlisted key reads as d. -/
@[simp] theorem smGetD_smSet_same {α : Type} [DecidableEq α] (m : List (Nat × α)) (k : Nat) (v d : α) :
    smGetD (smSet m k v d) k d = v := by
  unfold smSet smGetD
  split
  · rename_i h1; rw [smGet_smDel_same, h1]; rfl
  · simp

/-- Reading another key. -/
theorem smGetD_smSet_other {α : Type} [DecidableEq α] (m : List (Nat × α)) (k j : Nat) (v d d' : α) (h : j ≠ k) :
    smGetD (smSet m k v d) j d' = smGetD m j d' := by
  unfold smSet smGetD
  split
  · rw [smGet_smDel_other m k j h]
  · rw [smGet_smPut_other m k j v h]

/-- Setting a key keeps the keys rising. -/
theorem smSorted_smSet {α : Type} [DecidableEq α] (m : List (Nat × α)) (k : Nat) (v d : α) (h : smSorted m = true) :
    smSorted (smSet m k v d) = true := by
  unfold smSet
  split
  · exact smSorted_smDel m k h
  · exact smSorted_smPut m k v h

/-- Setting a key keeps the canonical form. -/
theorem smWf_smSet {α : Type} [DecidableEq α] (d : Nat → α) (m : List (Nat × α)) (k : Nat) (v : α) (h : smWf d m = true) :
    smWf d (smSet m k v (d k)) = true := by
  simp only [smWf, Bool.and_eq_true, List.all_eq_true, decide_eq_true_eq] at h ⊢
  refine ⟨smSorted_smSet m k v (d k) h.1, fun e he => ?_⟩
  unfold smSet at he
  split at he
  · exact h.2 e (mem_of_mem_smDel m k e he)
  · rename_i h1
    rcases mem_smPut m k v e he with rfl | he
    · exact h1
    · exact h.2 e he

end Sys2Proof.Machine
end

