-- ==== Sys2Proof/Laws/State.lean ====
section
/-!
SUPPORT. Laws of State: each small update leaves every field but its own as it was.
-/

namespace Sys2Proof.Machine

/-! ### `State.rgSet` -/

/-- `rgSet` keeps `now`. -/
@[simp] theorem State.rgSet_now (s : State) (k : Nat) (v : Word) : (s.rgSet k v).now = s.now := rfl
/-- `rgSet` keeps `straps`. -/
@[simp] theorem State.rgSet_straps (s : State) (k : Nat) (v : Word) : (s.rgSet k v).straps = s.straps := rfl
/-- `rgSet` keeps `fab`. -/
@[simp] theorem State.rgSet_fab (s : State) (k : Nat) (v : Word) : (s.rgSet k v).fab = s.fab := rfl
/-- `rgSet` keeps `thl`. -/
@[simp] theorem State.rgSet_thl (s : State) (k : Nat) (v : Word) : (s.rgSet k v).thl = s.thl := rfl
/-- `rgSet` keeps `rgn`. -/
@[simp] theorem State.rgSet_rgn (s : State) (k : Nat) (v : Word) : (s.rgSet k v).rgn = s.rgn := rfl
/-- `rgSet` keeps `frm`. -/
@[simp] theorem State.rgSet_frm (s : State) (k : Nat) (v : Word) : (s.rgSet k v).frm = s.frm := rfl
/-- `rgSet` keeps `acc`. -/
@[simp] theorem State.rgSet_acc (s : State) (k : Nat) (v : Word) : (s.rgSet k v).acc = s.acc := rfl
/-- `rgSet` keeps `dec`. -/
@[simp] theorem State.rgSet_dec (s : State) (k : Nat) (v : Word) : (s.rgSet k v).dec = s.dec := rfl
/-- `rgSet` keeps `upd`. -/
@[simp] theorem State.rgSet_upd (s : State) (k : Nat) (v : Word) : (s.rgSet k v).upd = s.upd := rfl
/-- `rgSet` keeps `cch`. -/
@[simp] theorem State.rgSet_cch (s : State) (k : Nat) (v : Word) : (s.rgSet k v).cch = s.cch := rfl
/-- `rgSet` keeps `dir`. -/
@[simp] theorem State.rgSet_dir (s : State) (k : Nat) (v : Word) : (s.rgSet k v).dir = s.dir := rfl
/-- `rgSet` keeps `obs`. -/
@[simp] theorem State.rgSet_obs (s : State) (k : Nat) (v : Word) : (s.rgSet k v).obs = s.obs := rfl
/-- `rgSet` keeps `arb`. -/
@[simp] theorem State.rgSet_arb (s : State) (k : Nat) (v : Word) : (s.rgSet k v).arb = s.arb := rfl
/-- `rgSet` keeps `ras`. -/
@[simp] theorem State.rgSet_ras (s : State) (k : Nat) (v : Word) : (s.rgSet k v).ras = s.ras := rfl
/-- `rgSet` keeps `pwr`. -/
@[simp] theorem State.rgSet_pwr (s : State) (k : Nat) (v : Word) : (s.rgSet k v).pwr = s.pwr := rfl
/-- `rgSet` keeps `spr`. -/
@[simp] theorem State.rgSet_spr (s : State) (k : Nat) (v : Word) : (s.rgSet k v).spr = s.spr := rfl
/-- `rgSet` keeps `mbn`. -/
@[simp] theorem State.rgSet_mbn (s : State) (k : Nat) (v : Word) : (s.rgSet k v).mbn = s.mbn := rfl
/-- `rgSet` keeps `mbs`. -/
@[simp] theorem State.rgSet_mbs (s : State) (k : Nat) (v : Word) : (s.rgSet k v).mbs = s.mbs := rfl
/-- `rgSet` keeps `drawn`. -/
@[simp] theorem State.rgSet_drawn (s : State) (k : Nat) (v : Word) : (s.rgSet k v).drawn = s.drawn := rfl
/-- `rgSet` keeps `pending`. -/
@[simp] theorem State.rgSet_pending (s : State) (k : Nat) (v : Word) : (s.rgSet k v).pending = s.pending := rfl

/-! ### `State.rgFld` -/

/-- `rgFld` keeps `now`. -/
@[simp] theorem State.rgFld_now (s : State) (k hi lo v : Nat) : (s.rgFld k hi lo v).now = s.now := rfl
/-- `rgFld` keeps `straps`. -/
@[simp] theorem State.rgFld_straps (s : State) (k hi lo v : Nat) : (s.rgFld k hi lo v).straps = s.straps := rfl
/-- `rgFld` keeps `fab`. -/
@[simp] theorem State.rgFld_fab (s : State) (k hi lo v : Nat) : (s.rgFld k hi lo v).fab = s.fab := rfl
/-- `rgFld` keeps `thl`. -/
@[simp] theorem State.rgFld_thl (s : State) (k hi lo v : Nat) : (s.rgFld k hi lo v).thl = s.thl := rfl
/-- `rgFld` keeps `rgn`. -/
@[simp] theorem State.rgFld_rgn (s : State) (k hi lo v : Nat) : (s.rgFld k hi lo v).rgn = s.rgn := rfl
/-- `rgFld` keeps `frm`. -/
@[simp] theorem State.rgFld_frm (s : State) (k hi lo v : Nat) : (s.rgFld k hi lo v).frm = s.frm := rfl
/-- `rgFld` keeps `acc`. -/
@[simp] theorem State.rgFld_acc (s : State) (k hi lo v : Nat) : (s.rgFld k hi lo v).acc = s.acc := rfl
/-- `rgFld` keeps `dec`. -/
@[simp] theorem State.rgFld_dec (s : State) (k hi lo v : Nat) : (s.rgFld k hi lo v).dec = s.dec := rfl
/-- `rgFld` keeps `upd`. -/
@[simp] theorem State.rgFld_upd (s : State) (k hi lo v : Nat) : (s.rgFld k hi lo v).upd = s.upd := rfl
/-- `rgFld` keeps `cch`. -/
@[simp] theorem State.rgFld_cch (s : State) (k hi lo v : Nat) : (s.rgFld k hi lo v).cch = s.cch := rfl
/-- `rgFld` keeps `dir`. -/
@[simp] theorem State.rgFld_dir (s : State) (k hi lo v : Nat) : (s.rgFld k hi lo v).dir = s.dir := rfl
/-- `rgFld` keeps `obs`. -/
@[simp] theorem State.rgFld_obs (s : State) (k hi lo v : Nat) : (s.rgFld k hi lo v).obs = s.obs := rfl
/-- `rgFld` keeps `arb`. -/
@[simp] theorem State.rgFld_arb (s : State) (k hi lo v : Nat) : (s.rgFld k hi lo v).arb = s.arb := rfl
/-- `rgFld` keeps `ras`. -/
@[simp] theorem State.rgFld_ras (s : State) (k hi lo v : Nat) : (s.rgFld k hi lo v).ras = s.ras := rfl
/-- `rgFld` keeps `pwr`. -/
@[simp] theorem State.rgFld_pwr (s : State) (k hi lo v : Nat) : (s.rgFld k hi lo v).pwr = s.pwr := rfl
/-- `rgFld` keeps `spr`. -/
@[simp] theorem State.rgFld_spr (s : State) (k hi lo v : Nat) : (s.rgFld k hi lo v).spr = s.spr := rfl
/-- `rgFld` keeps `mbn`. -/
@[simp] theorem State.rgFld_mbn (s : State) (k hi lo v : Nat) : (s.rgFld k hi lo v).mbn = s.mbn := rfl
/-- `rgFld` keeps `mbs`. -/
@[simp] theorem State.rgFld_mbs (s : State) (k hi lo v : Nat) : (s.rgFld k hi lo v).mbs = s.mbs := rfl
/-- `rgFld` keeps `drawn`. -/
@[simp] theorem State.rgFld_drawn (s : State) (k hi lo v : Nat) : (s.rgFld k hi lo v).drawn = s.drawn := rfl
/-- `rgFld` keeps `pending`. -/
@[simp] theorem State.rgFld_pending (s : State) (k hi lo v : Nat) : (s.rgFld k hi lo v).pending = s.pending := rfl

/-! ### `State.bump` -/

/-- `bump` keeps `now`. -/
@[simp] theorem State.bump_now (s : State) (k : Nat) : (s.bump k).now = s.now := rfl
/-- `bump` keeps `straps`. -/
@[simp] theorem State.bump_straps (s : State) (k : Nat) : (s.bump k).straps = s.straps := rfl
/-- `bump` keeps `fab`. -/
@[simp] theorem State.bump_fab (s : State) (k : Nat) : (s.bump k).fab = s.fab := rfl
/-- `bump` keeps `thl`. -/
@[simp] theorem State.bump_thl (s : State) (k : Nat) : (s.bump k).thl = s.thl := rfl
/-- `bump` keeps `rgn`. -/
@[simp] theorem State.bump_rgn (s : State) (k : Nat) : (s.bump k).rgn = s.rgn := rfl
/-- `bump` keeps `frm`. -/
@[simp] theorem State.bump_frm (s : State) (k : Nat) : (s.bump k).frm = s.frm := rfl
/-- `bump` keeps `acc`. -/
@[simp] theorem State.bump_acc (s : State) (k : Nat) : (s.bump k).acc = s.acc := rfl
/-- `bump` keeps `dec`. -/
@[simp] theorem State.bump_dec (s : State) (k : Nat) : (s.bump k).dec = s.dec := rfl
/-- `bump` keeps `upd`. -/
@[simp] theorem State.bump_upd (s : State) (k : Nat) : (s.bump k).upd = s.upd := rfl
/-- `bump` keeps `cch`. -/
@[simp] theorem State.bump_cch (s : State) (k : Nat) : (s.bump k).cch = s.cch := rfl
/-- `bump` keeps `dir`. -/
@[simp] theorem State.bump_dir (s : State) (k : Nat) : (s.bump k).dir = s.dir := rfl
/-- `bump` keeps `obs`. -/
@[simp] theorem State.bump_obs (s : State) (k : Nat) : (s.bump k).obs = s.obs := rfl
/-- `bump` keeps `arb`. -/
@[simp] theorem State.bump_arb (s : State) (k : Nat) : (s.bump k).arb = s.arb := rfl
/-- `bump` keeps `ras`. -/
@[simp] theorem State.bump_ras (s : State) (k : Nat) : (s.bump k).ras = s.ras := rfl
/-- `bump` keeps `pwr`. -/
@[simp] theorem State.bump_pwr (s : State) (k : Nat) : (s.bump k).pwr = s.pwr := rfl
/-- `bump` keeps `spr`. -/
@[simp] theorem State.bump_spr (s : State) (k : Nat) : (s.bump k).spr = s.spr := rfl
/-- `bump` keeps `mbn`. -/
@[simp] theorem State.bump_mbn (s : State) (k : Nat) : (s.bump k).mbn = s.mbn := rfl
/-- `bump` keeps `mbs`. -/
@[simp] theorem State.bump_mbs (s : State) (k : Nat) : (s.bump k).mbs = s.mbs := rfl
/-- `bump` keeps `drawn`. -/
@[simp] theorem State.bump_drawn (s : State) (k : Nat) : (s.bump k).drawn = s.drawn := rfl
/-- `bump` keeps `pending`. -/
@[simp] theorem State.bump_pending (s : State) (k : Nat) : (s.bump k).pending = s.pending := rfl

/-! ### `State.bumpBy` -/

/-- `bumpBy` keeps `now`. -/
@[simp] theorem State.bumpBy_now (s : State) (k n : Nat) : (s.bumpBy k n).now = s.now := rfl
/-- `bumpBy` keeps `straps`. -/
@[simp] theorem State.bumpBy_straps (s : State) (k n : Nat) : (s.bumpBy k n).straps = s.straps := rfl
/-- `bumpBy` keeps `fab`. -/
@[simp] theorem State.bumpBy_fab (s : State) (k n : Nat) : (s.bumpBy k n).fab = s.fab := rfl
/-- `bumpBy` keeps `thl`. -/
@[simp] theorem State.bumpBy_thl (s : State) (k n : Nat) : (s.bumpBy k n).thl = s.thl := rfl
/-- `bumpBy` keeps `rgn`. -/
@[simp] theorem State.bumpBy_rgn (s : State) (k n : Nat) : (s.bumpBy k n).rgn = s.rgn := rfl
/-- `bumpBy` keeps `frm`. -/
@[simp] theorem State.bumpBy_frm (s : State) (k n : Nat) : (s.bumpBy k n).frm = s.frm := rfl
/-- `bumpBy` keeps `acc`. -/
@[simp] theorem State.bumpBy_acc (s : State) (k n : Nat) : (s.bumpBy k n).acc = s.acc := rfl
/-- `bumpBy` keeps `dec`. -/
@[simp] theorem State.bumpBy_dec (s : State) (k n : Nat) : (s.bumpBy k n).dec = s.dec := rfl
/-- `bumpBy` keeps `upd`. -/
@[simp] theorem State.bumpBy_upd (s : State) (k n : Nat) : (s.bumpBy k n).upd = s.upd := rfl
/-- `bumpBy` keeps `cch`. -/
@[simp] theorem State.bumpBy_cch (s : State) (k n : Nat) : (s.bumpBy k n).cch = s.cch := rfl
/-- `bumpBy` keeps `dir`. -/
@[simp] theorem State.bumpBy_dir (s : State) (k n : Nat) : (s.bumpBy k n).dir = s.dir := rfl
/-- `bumpBy` keeps `obs`. -/
@[simp] theorem State.bumpBy_obs (s : State) (k n : Nat) : (s.bumpBy k n).obs = s.obs := rfl
/-- `bumpBy` keeps `arb`. -/
@[simp] theorem State.bumpBy_arb (s : State) (k n : Nat) : (s.bumpBy k n).arb = s.arb := rfl
/-- `bumpBy` keeps `ras`. -/
@[simp] theorem State.bumpBy_ras (s : State) (k n : Nat) : (s.bumpBy k n).ras = s.ras := rfl
/-- `bumpBy` keeps `pwr`. -/
@[simp] theorem State.bumpBy_pwr (s : State) (k n : Nat) : (s.bumpBy k n).pwr = s.pwr := rfl
/-- `bumpBy` keeps `spr`. -/
@[simp] theorem State.bumpBy_spr (s : State) (k n : Nat) : (s.bumpBy k n).spr = s.spr := rfl
/-- `bumpBy` keeps `mbn`. -/
@[simp] theorem State.bumpBy_mbn (s : State) (k n : Nat) : (s.bumpBy k n).mbn = s.mbn := rfl
/-- `bumpBy` keeps `mbs`. -/
@[simp] theorem State.bumpBy_mbs (s : State) (k n : Nat) : (s.bumpBy k n).mbs = s.mbs := rfl
/-- `bumpBy` keeps `drawn`. -/
@[simp] theorem State.bumpBy_drawn (s : State) (k n : Nat) : (s.bumpBy k n).drawn = s.drawn := rfl
/-- `bumpBy` keeps `pending`. -/
@[simp] theorem State.bumpBy_pending (s : State) (k n : Nat) : (s.bumpBy k n).pending = s.pending := rfl

/-! ### `send` -/

/-- `send` keeps `now`. -/
@[simp] theorem send_now (s : State) (p : OutPkt) : (send s p).now = s.now := rfl
/-- `send` keeps `straps`. -/
@[simp] theorem send_straps (s : State) (p : OutPkt) : (send s p).straps = s.straps := rfl
/-- `send` keeps `regs`. -/
@[simp] theorem send_regs (s : State) (p : OutPkt) : (send s p).regs = s.regs := rfl
/-- `send` keeps `thl`. -/
@[simp] theorem send_thl (s : State) (p : OutPkt) : (send s p).thl = s.thl := rfl
/-- `send` keeps `rgn`. -/
@[simp] theorem send_rgn (s : State) (p : OutPkt) : (send s p).rgn = s.rgn := rfl
/-- `send` keeps `frm`. -/
@[simp] theorem send_frm (s : State) (p : OutPkt) : (send s p).frm = s.frm := rfl
/-- `send` keeps `acc`. -/
@[simp] theorem send_acc (s : State) (p : OutPkt) : (send s p).acc = s.acc := rfl
/-- `send` keeps `dec`. -/
@[simp] theorem send_dec (s : State) (p : OutPkt) : (send s p).dec = s.dec := rfl
/-- `send` keeps `upd`. -/
@[simp] theorem send_upd (s : State) (p : OutPkt) : (send s p).upd = s.upd := rfl
/-- `send` keeps `cch`. -/
@[simp] theorem send_cch (s : State) (p : OutPkt) : (send s p).cch = s.cch := rfl
/-- `send` keeps `dir`. -/
@[simp] theorem send_dir (s : State) (p : OutPkt) : (send s p).dir = s.dir := rfl
/-- `send` keeps `obs`. -/
@[simp] theorem send_obs (s : State) (p : OutPkt) : (send s p).obs = s.obs := rfl
/-- `send` keeps `arb`. -/
@[simp] theorem send_arb (s : State) (p : OutPkt) : (send s p).arb = s.arb := rfl
/-- `send` keeps `ras`. -/
@[simp] theorem send_ras (s : State) (p : OutPkt) : (send s p).ras = s.ras := rfl
/-- `send` keeps `pwr`. -/
@[simp] theorem send_pwr (s : State) (p : OutPkt) : (send s p).pwr = s.pwr := rfl
/-- `send` keeps `spr`. -/
@[simp] theorem send_spr (s : State) (p : OutPkt) : (send s p).spr = s.spr := rfl
/-- `send` keeps `mbn`. -/
@[simp] theorem send_mbn (s : State) (p : OutPkt) : (send s p).mbn = s.mbn := rfl
/-- `send` keeps `mbs`. -/
@[simp] theorem send_mbs (s : State) (p : OutPkt) : (send s p).mbs = s.mbs := rfl
/-- `send` keeps `drawn`. -/
@[simp] theorem send_drawn (s : State) (p : OutPkt) : (send s p).drawn = s.drawn := rfl
/-- `send` keeps `pending`. -/
@[simp] theorem send_pending (s : State) (p : OutPkt) : (send s p).pending = s.pending := rfl

/-! ### `answer` -/

/-- `answer` keeps `now`. -/
@[simp] theorem answer_now (s : State) (h : BitVec 256) (vc c p t : Nat) : (answer s h vc c p t).now = s.now := rfl
/-- `answer` keeps `straps`. -/
@[simp] theorem answer_straps (s : State) (h : BitVec 256) (vc c p t : Nat) : (answer s h vc c p t).straps = s.straps := rfl
/-- `answer` keeps `regs`. -/
@[simp] theorem answer_regs (s : State) (h : BitVec 256) (vc c p t : Nat) : (answer s h vc c p t).regs = s.regs := rfl
/-- `answer` keeps `thl`. -/
@[simp] theorem answer_thl (s : State) (h : BitVec 256) (vc c p t : Nat) : (answer s h vc c p t).thl = s.thl := rfl
/-- `answer` keeps `rgn`. -/
@[simp] theorem answer_rgn (s : State) (h : BitVec 256) (vc c p t : Nat) : (answer s h vc c p t).rgn = s.rgn := rfl
/-- `answer` keeps `frm`. -/
@[simp] theorem answer_frm (s : State) (h : BitVec 256) (vc c p t : Nat) : (answer s h vc c p t).frm = s.frm := rfl
/-- `answer` keeps `acc`. -/
@[simp] theorem answer_acc (s : State) (h : BitVec 256) (vc c p t : Nat) : (answer s h vc c p t).acc = s.acc := rfl
/-- `answer` keeps `dec`. -/
@[simp] theorem answer_dec (s : State) (h : BitVec 256) (vc c p t : Nat) : (answer s h vc c p t).dec = s.dec := rfl
/-- `answer` keeps `upd`. -/
@[simp] theorem answer_upd (s : State) (h : BitVec 256) (vc c p t : Nat) : (answer s h vc c p t).upd = s.upd := rfl
/-- `answer` keeps `cch`. -/
@[simp] theorem answer_cch (s : State) (h : BitVec 256) (vc c p t : Nat) : (answer s h vc c p t).cch = s.cch := rfl
/-- `answer` keeps `dir`. -/
@[simp] theorem answer_dir (s : State) (h : BitVec 256) (vc c p t : Nat) : (answer s h vc c p t).dir = s.dir := rfl
/-- `answer` keeps `obs`. -/
@[simp] theorem answer_obs (s : State) (h : BitVec 256) (vc c p t : Nat) : (answer s h vc c p t).obs = s.obs := rfl
/-- `answer` keeps `arb`. -/
@[simp] theorem answer_arb (s : State) (h : BitVec 256) (vc c p t : Nat) : (answer s h vc c p t).arb = s.arb := rfl
/-- `answer` keeps `ras`. -/
@[simp] theorem answer_ras (s : State) (h : BitVec 256) (vc c p t : Nat) : (answer s h vc c p t).ras = s.ras := rfl
/-- `answer` keeps `pwr`. -/
@[simp] theorem answer_pwr (s : State) (h : BitVec 256) (vc c p t : Nat) : (answer s h vc c p t).pwr = s.pwr := rfl
/-- `answer` keeps `spr`. -/
@[simp] theorem answer_spr (s : State) (h : BitVec 256) (vc c p t : Nat) : (answer s h vc c p t).spr = s.spr := rfl
/-- `answer` keeps `mbn`. -/
@[simp] theorem answer_mbn (s : State) (h : BitVec 256) (vc c p t : Nat) : (answer s h vc c p t).mbn = s.mbn := rfl
/-- `answer` keeps `mbs`. -/
@[simp] theorem answer_mbs (s : State) (h : BitVec 256) (vc c p t : Nat) : (answer s h vc c p t).mbs = s.mbs := rfl
/-- `answer` keeps `drawn`. -/
@[simp] theorem answer_drawn (s : State) (h : BitVec 256) (vc c p t : Nat) : (answer s h vc c p t).drawn = s.drawn := rfl
/-- `answer` keeps `pending`. -/
@[simp] theorem answer_pending (s : State) (h : BitVec 256) (vc c p t : Nat) : (answer s h vc c p t).pending = s.pending := rfl

/-! ### `answerData` -/

/-- `answerData` keeps `now`. -/
@[simp] theorem answerData_now (s : State) (h : BitVec 256) (c : Nat) (l : List CData) (t : Nat) : (answerData s h c l t).now = s.now := rfl
/-- `answerData` keeps `straps`. -/
@[simp] theorem answerData_straps (s : State) (h : BitVec 256) (c : Nat) (l : List CData) (t : Nat) : (answerData s h c l t).straps = s.straps := rfl
/-- `answerData` keeps `regs`. -/
@[simp] theorem answerData_regs (s : State) (h : BitVec 256) (c : Nat) (l : List CData) (t : Nat) : (answerData s h c l t).regs = s.regs := rfl
/-- `answerData` keeps `thl`. -/
@[simp] theorem answerData_thl (s : State) (h : BitVec 256) (c : Nat) (l : List CData) (t : Nat) : (answerData s h c l t).thl = s.thl := rfl
/-- `answerData` keeps `rgn`. -/
@[simp] theorem answerData_rgn (s : State) (h : BitVec 256) (c : Nat) (l : List CData) (t : Nat) : (answerData s h c l t).rgn = s.rgn := rfl
/-- `answerData` keeps `frm`. -/
@[simp] theorem answerData_frm (s : State) (h : BitVec 256) (c : Nat) (l : List CData) (t : Nat) : (answerData s h c l t).frm = s.frm := rfl
/-- `answerData` keeps `acc`. -/
@[simp] theorem answerData_acc (s : State) (h : BitVec 256) (c : Nat) (l : List CData) (t : Nat) : (answerData s h c l t).acc = s.acc := rfl
/-- `answerData` keeps `dec`. -/
@[simp] theorem answerData_dec (s : State) (h : BitVec 256) (c : Nat) (l : List CData) (t : Nat) : (answerData s h c l t).dec = s.dec := rfl
/-- `answerData` keeps `upd`. -/
@[simp] theorem answerData_upd (s : State) (h : BitVec 256) (c : Nat) (l : List CData) (t : Nat) : (answerData s h c l t).upd = s.upd := rfl
/-- `answerData` keeps `cch`. -/
@[simp] theorem answerData_cch (s : State) (h : BitVec 256) (c : Nat) (l : List CData) (t : Nat) : (answerData s h c l t).cch = s.cch := rfl
/-- `answerData` keeps `dir`. -/
@[simp] theorem answerData_dir (s : State) (h : BitVec 256) (c : Nat) (l : List CData) (t : Nat) : (answerData s h c l t).dir = s.dir := rfl
/-- `answerData` keeps `obs`. -/
@[simp] theorem answerData_obs (s : State) (h : BitVec 256) (c : Nat) (l : List CData) (t : Nat) : (answerData s h c l t).obs = s.obs := rfl
/-- `answerData` keeps `arb`. -/
@[simp] theorem answerData_arb (s : State) (h : BitVec 256) (c : Nat) (l : List CData) (t : Nat) : (answerData s h c l t).arb = s.arb := rfl
/-- `answerData` keeps `ras`. -/
@[simp] theorem answerData_ras (s : State) (h : BitVec 256) (c : Nat) (l : List CData) (t : Nat) : (answerData s h c l t).ras = s.ras := rfl
/-- `answerData` keeps `pwr`. -/
@[simp] theorem answerData_pwr (s : State) (h : BitVec 256) (c : Nat) (l : List CData) (t : Nat) : (answerData s h c l t).pwr = s.pwr := rfl
/-- `answerData` keeps `spr`. -/
@[simp] theorem answerData_spr (s : State) (h : BitVec 256) (c : Nat) (l : List CData) (t : Nat) : (answerData s h c l t).spr = s.spr := rfl
/-- `answerData` keeps `mbn`. -/
@[simp] theorem answerData_mbn (s : State) (h : BitVec 256) (c : Nat) (l : List CData) (t : Nat) : (answerData s h c l t).mbn = s.mbn := rfl
/-- `answerData` keeps `mbs`. -/
@[simp] theorem answerData_mbs (s : State) (h : BitVec 256) (c : Nat) (l : List CData) (t : Nat) : (answerData s h c l t).mbs = s.mbs := rfl
/-- `answerData` keeps `drawn`. -/
@[simp] theorem answerData_drawn (s : State) (h : BitVec 256) (c : Nat) (l : List CData) (t : Nat) : (answerData s h c l t).drawn = s.drawn := rfl
/-- `answerData` keeps `pending`. -/
@[simp] theorem answerData_pending (s : State) (h : BitVec 256) (c : Nat) (l : List CData) (t : Nat) : (answerData s h c l t).pending = s.pending := rfl

/-! ### `setReq` -/

/-- `setReq` keeps `now`. -/
@[simp] theorem setReq_now (s : State) (k : Nat) (r : Req) : (setReq s k r).now = s.now := rfl
/-- `setReq` keeps `straps`. -/
@[simp] theorem setReq_straps (s : State) (k : Nat) (r : Req) : (setReq s k r).straps = s.straps := rfl
/-- `setReq` keeps `regs`. -/
@[simp] theorem setReq_regs (s : State) (k : Nat) (r : Req) : (setReq s k r).regs = s.regs := rfl
/-- `setReq` keeps `thl`. -/
@[simp] theorem setReq_thl (s : State) (k : Nat) (r : Req) : (setReq s k r).thl = s.thl := rfl
/-- `setReq` keeps `rgn`. -/
@[simp] theorem setReq_rgn (s : State) (k : Nat) (r : Req) : (setReq s k r).rgn = s.rgn := rfl
/-- `setReq` keeps `frm`. -/
@[simp] theorem setReq_frm (s : State) (k : Nat) (r : Req) : (setReq s k r).frm = s.frm := rfl
/-- `setReq` keeps `acc`. -/
@[simp] theorem setReq_acc (s : State) (k : Nat) (r : Req) : (setReq s k r).acc = s.acc := rfl
/-- `setReq` keeps `dec`. -/
@[simp] theorem setReq_dec (s : State) (k : Nat) (r : Req) : (setReq s k r).dec = s.dec := rfl
/-- `setReq` keeps `upd`. -/
@[simp] theorem setReq_upd (s : State) (k : Nat) (r : Req) : (setReq s k r).upd = s.upd := rfl
/-- `setReq` keeps `cch`. -/
@[simp] theorem setReq_cch (s : State) (k : Nat) (r : Req) : (setReq s k r).cch = s.cch := rfl
/-- `setReq` keeps `dir`. -/
@[simp] theorem setReq_dir (s : State) (k : Nat) (r : Req) : (setReq s k r).dir = s.dir := rfl
/-- `setReq` keeps `obs`. -/
@[simp] theorem setReq_obs (s : State) (k : Nat) (r : Req) : (setReq s k r).obs = s.obs := rfl
/-- `setReq` keeps `arb`. -/
@[simp] theorem setReq_arb (s : State) (k : Nat) (r : Req) : (setReq s k r).arb = s.arb := rfl
/-- `setReq` keeps `ras`. -/
@[simp] theorem setReq_ras (s : State) (k : Nat) (r : Req) : (setReq s k r).ras = s.ras := rfl
/-- `setReq` keeps `pwr`. -/
@[simp] theorem setReq_pwr (s : State) (k : Nat) (r : Req) : (setReq s k r).pwr = s.pwr := rfl
/-- `setReq` keeps `spr`. -/
@[simp] theorem setReq_spr (s : State) (k : Nat) (r : Req) : (setReq s k r).spr = s.spr := rfl
/-- `setReq` keeps `mbn`. -/
@[simp] theorem setReq_mbn (s : State) (k : Nat) (r : Req) : (setReq s k r).mbn = s.mbn := rfl
/-- `setReq` keeps `mbs`. -/
@[simp] theorem setReq_mbs (s : State) (k : Nat) (r : Req) : (setReq s k r).mbs = s.mbs := rfl
/-- `setReq` keeps `drawn`. -/
@[simp] theorem setReq_drawn (s : State) (k : Nat) (r : Req) : (setReq s k r).drawn = s.drawn := rfl
/-- `setReq` keeps `pending`. -/
@[simp] theorem setReq_pending (s : State) (k : Nat) (r : Req) : (setReq s k r).pending = s.pending := rfl

/-! ### `freeReq` -/

/-- `freeReq` keeps `now`. -/
@[simp] theorem freeReq_now (s : State) (k : Nat) : (freeReq s k).now = s.now := rfl
/-- `freeReq` keeps `straps`. -/
@[simp] theorem freeReq_straps (s : State) (k : Nat) : (freeReq s k).straps = s.straps := rfl
/-- `freeReq` keeps `regs`. -/
@[simp] theorem freeReq_regs (s : State) (k : Nat) : (freeReq s k).regs = s.regs := rfl
/-- `freeReq` keeps `thl`. -/
@[simp] theorem freeReq_thl (s : State) (k : Nat) : (freeReq s k).thl = s.thl := rfl
/-- `freeReq` keeps `rgn`. -/
@[simp] theorem freeReq_rgn (s : State) (k : Nat) : (freeReq s k).rgn = s.rgn := rfl
/-- `freeReq` keeps `frm`. -/
@[simp] theorem freeReq_frm (s : State) (k : Nat) : (freeReq s k).frm = s.frm := rfl
/-- `freeReq` keeps `acc`. -/
@[simp] theorem freeReq_acc (s : State) (k : Nat) : (freeReq s k).acc = s.acc := rfl
/-- `freeReq` keeps `dec`. -/
@[simp] theorem freeReq_dec (s : State) (k : Nat) : (freeReq s k).dec = s.dec := rfl
/-- `freeReq` keeps `upd`. -/
@[simp] theorem freeReq_upd (s : State) (k : Nat) : (freeReq s k).upd = s.upd := rfl
/-- `freeReq` keeps `cch`. -/
@[simp] theorem freeReq_cch (s : State) (k : Nat) : (freeReq s k).cch = s.cch := rfl
/-- `freeReq` keeps `dir`. -/
@[simp] theorem freeReq_dir (s : State) (k : Nat) : (freeReq s k).dir = s.dir := rfl
/-- `freeReq` keeps `obs`. -/
@[simp] theorem freeReq_obs (s : State) (k : Nat) : (freeReq s k).obs = s.obs := rfl
/-- `freeReq` keeps `arb`. -/
@[simp] theorem freeReq_arb (s : State) (k : Nat) : (freeReq s k).arb = s.arb := rfl
/-- `freeReq` keeps `ras`. -/
@[simp] theorem freeReq_ras (s : State) (k : Nat) : (freeReq s k).ras = s.ras := rfl
/-- `freeReq` keeps `pwr`. -/
@[simp] theorem freeReq_pwr (s : State) (k : Nat) : (freeReq s k).pwr = s.pwr := rfl
/-- `freeReq` keeps `spr`. -/
@[simp] theorem freeReq_spr (s : State) (k : Nat) : (freeReq s k).spr = s.spr := rfl
/-- `freeReq` keeps `mbn`. -/
@[simp] theorem freeReq_mbn (s : State) (k : Nat) : (freeReq s k).mbn = s.mbn := rfl
/-- `freeReq` keeps `mbs`. -/
@[simp] theorem freeReq_mbs (s : State) (k : Nat) : (freeReq s k).mbs = s.mbs := rfl
/-- `freeReq` keeps `drawn`. -/
@[simp] theorem freeReq_drawn (s : State) (k : Nat) : (freeReq s k).drawn = s.drawn := rfl
/-- `freeReq` keeps `pending`. -/
@[simp] theorem freeReq_pending (s : State) (k : Nat) : (freeReq s k).pending = s.pending := rfl

/-! ### `oweCredits` -/

/-- `oweCredits` keeps `now`. -/
@[simp] theorem oweCredits_now (s : State) (vc n : Nat) : (oweCredits s vc n).now = s.now := rfl
/-- `oweCredits` keeps `straps`. -/
@[simp] theorem oweCredits_straps (s : State) (vc n : Nat) : (oweCredits s vc n).straps = s.straps := rfl
/-- `oweCredits` keeps `regs`. -/
@[simp] theorem oweCredits_regs (s : State) (vc n : Nat) : (oweCredits s vc n).regs = s.regs := rfl
/-- `oweCredits` keeps `thl`. -/
@[simp] theorem oweCredits_thl (s : State) (vc n : Nat) : (oweCredits s vc n).thl = s.thl := rfl
/-- `oweCredits` keeps `rgn`. -/
@[simp] theorem oweCredits_rgn (s : State) (vc n : Nat) : (oweCredits s vc n).rgn = s.rgn := rfl
/-- `oweCredits` keeps `frm`. -/
@[simp] theorem oweCredits_frm (s : State) (vc n : Nat) : (oweCredits s vc n).frm = s.frm := rfl
/-- `oweCredits` keeps `acc`. -/
@[simp] theorem oweCredits_acc (s : State) (vc n : Nat) : (oweCredits s vc n).acc = s.acc := rfl
/-- `oweCredits` keeps `dec`. -/
@[simp] theorem oweCredits_dec (s : State) (vc n : Nat) : (oweCredits s vc n).dec = s.dec := rfl
/-- `oweCredits` keeps `upd`. -/
@[simp] theorem oweCredits_upd (s : State) (vc n : Nat) : (oweCredits s vc n).upd = s.upd := rfl
/-- `oweCredits` keeps `cch`. -/
@[simp] theorem oweCredits_cch (s : State) (vc n : Nat) : (oweCredits s vc n).cch = s.cch := rfl
/-- `oweCredits` keeps `dir`. -/
@[simp] theorem oweCredits_dir (s : State) (vc n : Nat) : (oweCredits s vc n).dir = s.dir := rfl
/-- `oweCredits` keeps `obs`. -/
@[simp] theorem oweCredits_obs (s : State) (vc n : Nat) : (oweCredits s vc n).obs = s.obs := rfl
/-- `oweCredits` keeps `arb`. -/
@[simp] theorem oweCredits_arb (s : State) (vc n : Nat) : (oweCredits s vc n).arb = s.arb := rfl
/-- `oweCredits` keeps `ras`. -/
@[simp] theorem oweCredits_ras (s : State) (vc n : Nat) : (oweCredits s vc n).ras = s.ras := rfl
/-- `oweCredits` keeps `pwr`. -/
@[simp] theorem oweCredits_pwr (s : State) (vc n : Nat) : (oweCredits s vc n).pwr = s.pwr := rfl
/-- `oweCredits` keeps `spr`. -/
@[simp] theorem oweCredits_spr (s : State) (vc n : Nat) : (oweCredits s vc n).spr = s.spr := rfl
/-- `oweCredits` keeps `mbn`. -/
@[simp] theorem oweCredits_mbn (s : State) (vc n : Nat) : (oweCredits s vc n).mbn = s.mbn := rfl
/-- `oweCredits` keeps `mbs`. -/
@[simp] theorem oweCredits_mbs (s : State) (vc n : Nat) : (oweCredits s vc n).mbs = s.mbs := rfl
/-- `oweCredits` keeps `drawn`. -/
@[simp] theorem oweCredits_drawn (s : State) (vc n : Nat) : (oweCredits s vc n).drawn = s.drawn := rfl
/-- `oweCredits` keeps `pending`. -/
@[simp] theorem oweCredits_pending (s : State) (vc n : Nat) : (oweCredits s vc n).pending = s.pending := rfl

/-! ### `sendSnet` -/

/-- `sendSnet` keeps `now`. -/
@[simp] theorem sendSnet_now (s : State) (y a t : Nat) : (sendSnet s y a t).now = s.now := rfl
/-- `sendSnet` keeps `straps`. -/
@[simp] theorem sendSnet_straps (s : State) (y a t : Nat) : (sendSnet s y a t).straps = s.straps := rfl
/-- `sendSnet` keeps `regs`. -/
@[simp] theorem sendSnet_regs (s : State) (y a t : Nat) : (sendSnet s y a t).regs = s.regs := rfl
/-- `sendSnet` keeps `thl`. -/
@[simp] theorem sendSnet_thl (s : State) (y a t : Nat) : (sendSnet s y a t).thl = s.thl := rfl
/-- `sendSnet` keeps `rgn`. -/
@[simp] theorem sendSnet_rgn (s : State) (y a t : Nat) : (sendSnet s y a t).rgn = s.rgn := rfl
/-- `sendSnet` keeps `frm`. -/
@[simp] theorem sendSnet_frm (s : State) (y a t : Nat) : (sendSnet s y a t).frm = s.frm := rfl
/-- `sendSnet` keeps `acc`. -/
@[simp] theorem sendSnet_acc (s : State) (y a t : Nat) : (sendSnet s y a t).acc = s.acc := rfl
/-- `sendSnet` keeps `dec`. -/
@[simp] theorem sendSnet_dec (s : State) (y a t : Nat) : (sendSnet s y a t).dec = s.dec := rfl
/-- `sendSnet` keeps `upd`. -/
@[simp] theorem sendSnet_upd (s : State) (y a t : Nat) : (sendSnet s y a t).upd = s.upd := rfl
/-- `sendSnet` keeps `cch`. -/
@[simp] theorem sendSnet_cch (s : State) (y a t : Nat) : (sendSnet s y a t).cch = s.cch := rfl
/-- `sendSnet` keeps `dir`. -/
@[simp] theorem sendSnet_dir (s : State) (y a t : Nat) : (sendSnet s y a t).dir = s.dir := rfl
/-- `sendSnet` keeps `obs`. -/
@[simp] theorem sendSnet_obs (s : State) (y a t : Nat) : (sendSnet s y a t).obs = s.obs := rfl
/-- `sendSnet` keeps `arb`. -/
@[simp] theorem sendSnet_arb (s : State) (y a t : Nat) : (sendSnet s y a t).arb = s.arb := rfl
/-- `sendSnet` keeps `ras`. -/
@[simp] theorem sendSnet_ras (s : State) (y a t : Nat) : (sendSnet s y a t).ras = s.ras := rfl
/-- `sendSnet` keeps `pwr`. -/
@[simp] theorem sendSnet_pwr (s : State) (y a t : Nat) : (sendSnet s y a t).pwr = s.pwr := rfl
/-- `sendSnet` keeps `spr`. -/
@[simp] theorem sendSnet_spr (s : State) (y a t : Nat) : (sendSnet s y a t).spr = s.spr := rfl
/-- `sendSnet` keeps `mbn`. -/
@[simp] theorem sendSnet_mbn (s : State) (y a t : Nat) : (sendSnet s y a t).mbn = s.mbn := rfl
/-- `sendSnet` keeps `mbs`. -/
@[simp] theorem sendSnet_mbs (s : State) (y a t : Nat) : (sendSnet s y a t).mbs = s.mbs := rfl
/-- `sendSnet` keeps `drawn`. -/
@[simp] theorem sendSnet_drawn (s : State) (y a t : Nat) : (sendSnet s y a t).drawn = s.drawn := rfl
/-- `sendSnet` keeps `pending`. -/
@[simp] theorem sendSnet_pending (s : State) (y a t : Nat) : (sendSnet s y a t).pending = s.pending := rfl

/-! ### `evtPulse` -/

/-- `evtPulse` keeps `now`. -/
@[simp] theorem evtPulse_now (s : State) (c a : Nat) : (evtPulse s c a).now = s.now := rfl
/-- `evtPulse` keeps `straps`. -/
@[simp] theorem evtPulse_straps (s : State) (c a : Nat) : (evtPulse s c a).straps = s.straps := rfl
/-- `evtPulse` keeps `regs`. -/
@[simp] theorem evtPulse_regs (s : State) (c a : Nat) : (evtPulse s c a).regs = s.regs := rfl
/-- `evtPulse` keeps `fab`. -/
@[simp] theorem evtPulse_fab (s : State) (c a : Nat) : (evtPulse s c a).fab = s.fab := rfl
/-- `evtPulse` keeps `thl`. -/
@[simp] theorem evtPulse_thl (s : State) (c a : Nat) : (evtPulse s c a).thl = s.thl := rfl
/-- `evtPulse` keeps `rgn`. -/
@[simp] theorem evtPulse_rgn (s : State) (c a : Nat) : (evtPulse s c a).rgn = s.rgn := rfl
/-- `evtPulse` keeps `frm`. -/
@[simp] theorem evtPulse_frm (s : State) (c a : Nat) : (evtPulse s c a).frm = s.frm := rfl
/-- `evtPulse` keeps `acc`. -/
@[simp] theorem evtPulse_acc (s : State) (c a : Nat) : (evtPulse s c a).acc = s.acc := rfl
/-- `evtPulse` keeps `dec`. -/
@[simp] theorem evtPulse_dec (s : State) (c a : Nat) : (evtPulse s c a).dec = s.dec := rfl
/-- `evtPulse` keeps `upd`. -/
@[simp] theorem evtPulse_upd (s : State) (c a : Nat) : (evtPulse s c a).upd = s.upd := rfl
/-- `evtPulse` keeps `cch`. -/
@[simp] theorem evtPulse_cch (s : State) (c a : Nat) : (evtPulse s c a).cch = s.cch := rfl
/-- `evtPulse` keeps `dir`. -/
@[simp] theorem evtPulse_dir (s : State) (c a : Nat) : (evtPulse s c a).dir = s.dir := rfl
/-- `evtPulse` keeps `arb`. -/
@[simp] theorem evtPulse_arb (s : State) (c a : Nat) : (evtPulse s c a).arb = s.arb := rfl
/-- `evtPulse` keeps `ras`. -/
@[simp] theorem evtPulse_ras (s : State) (c a : Nat) : (evtPulse s c a).ras = s.ras := rfl
/-- `evtPulse` keeps `pwr`. -/
@[simp] theorem evtPulse_pwr (s : State) (c a : Nat) : (evtPulse s c a).pwr = s.pwr := rfl
/-- `evtPulse` keeps `spr`. -/
@[simp] theorem evtPulse_spr (s : State) (c a : Nat) : (evtPulse s c a).spr = s.spr := rfl
/-- `evtPulse` keeps `mbn`. -/
@[simp] theorem evtPulse_mbn (s : State) (c a : Nat) : (evtPulse s c a).mbn = s.mbn := rfl
/-- `evtPulse` keeps `mbs`. -/
@[simp] theorem evtPulse_mbs (s : State) (c a : Nat) : (evtPulse s c a).mbs = s.mbs := rfl
/-- `evtPulse` keeps `drawn`. -/
@[simp] theorem evtPulse_drawn (s : State) (c a : Nat) : (evtPulse s c a).drawn = s.drawn := rfl
/-- `evtPulse` keeps `pending`. -/
@[simp] theorem evtPulse_pending (s : State) (c a : Nat) : (evtPulse s c a).pending = s.pending := rfl

/-! ### `setTier` -/

/-- `setTier` keeps `now`. -/
@[simp] theorem setTier_now (s : State) (n : Nat) (x : TierSt) : (setTier s n x).now = s.now := rfl
/-- `setTier` keeps `straps`. -/
@[simp] theorem setTier_straps (s : State) (n : Nat) (x : TierSt) : (setTier s n x).straps = s.straps := rfl
/-- `setTier` keeps `regs`. -/
@[simp] theorem setTier_regs (s : State) (n : Nat) (x : TierSt) : (setTier s n x).regs = s.regs := rfl
/-- `setTier` keeps `fab`. -/
@[simp] theorem setTier_fab (s : State) (n : Nat) (x : TierSt) : (setTier s n x).fab = s.fab := rfl
/-- `setTier` keeps `thl`. -/
@[simp] theorem setTier_thl (s : State) (n : Nat) (x : TierSt) : (setTier s n x).thl = s.thl := rfl
/-- `setTier` keeps `rgn`. -/
@[simp] theorem setTier_rgn (s : State) (n : Nat) (x : TierSt) : (setTier s n x).rgn = s.rgn := rfl
/-- `setTier` keeps `frm`. -/
@[simp] theorem setTier_frm (s : State) (n : Nat) (x : TierSt) : (setTier s n x).frm = s.frm := rfl
/-- `setTier` keeps `acc`. -/
@[simp] theorem setTier_acc (s : State) (n : Nat) (x : TierSt) : (setTier s n x).acc = s.acc := rfl
/-- `setTier` keeps `dec`. -/
@[simp] theorem setTier_dec (s : State) (n : Nat) (x : TierSt) : (setTier s n x).dec = s.dec := rfl
/-- `setTier` keeps `upd`. -/
@[simp] theorem setTier_upd (s : State) (n : Nat) (x : TierSt) : (setTier s n x).upd = s.upd := rfl
/-- `setTier` keeps `cch`. -/
@[simp] theorem setTier_cch (s : State) (n : Nat) (x : TierSt) : (setTier s n x).cch = s.cch := rfl
/-- `setTier` keeps `dir`. -/
@[simp] theorem setTier_dir (s : State) (n : Nat) (x : TierSt) : (setTier s n x).dir = s.dir := rfl
/-- `setTier` keeps `obs`. -/
@[simp] theorem setTier_obs (s : State) (n : Nat) (x : TierSt) : (setTier s n x).obs = s.obs := rfl
/-- `setTier` keeps `arb`. -/
@[simp] theorem setTier_arb (s : State) (n : Nat) (x : TierSt) : (setTier s n x).arb = s.arb := rfl
/-- `setTier` keeps `ras`. -/
@[simp] theorem setTier_ras (s : State) (n : Nat) (x : TierSt) : (setTier s n x).ras = s.ras := rfl
/-- `setTier` keeps `spr`. -/
@[simp] theorem setTier_spr (s : State) (n : Nat) (x : TierSt) : (setTier s n x).spr = s.spr := rfl
/-- `setTier` keeps `mbn`. -/
@[simp] theorem setTier_mbn (s : State) (n : Nat) (x : TierSt) : (setTier s n x).mbn = s.mbn := rfl
/-- `setTier` keeps `mbs`. -/
@[simp] theorem setTier_mbs (s : State) (n : Nat) (x : TierSt) : (setTier s n x).mbs = s.mbs := rfl
/-- `setTier` keeps `drawn`. -/
@[simp] theorem setTier_drawn (s : State) (n : Nat) (x : TierSt) : (setTier s n x).drawn = s.drawn := rfl
/-- `setTier` keeps `pending`. -/
@[simp] theorem setTier_pending (s : State) (n : Nat) (x : TierSt) : (setTier s n x).pending = s.pending := rfl

/-! ### `backTo` -/

/-- `backTo` keeps `straps`. -/
@[simp] theorem backTo_straps (s : State) (t : Nat) : (backTo s t).straps = s.straps := rfl
/-- `backTo` keeps `regs`. -/
@[simp] theorem backTo_regs (s : State) (t : Nat) : (backTo s t).regs = s.regs := rfl
/-- `backTo` keeps `fab`. -/
@[simp] theorem backTo_fab (s : State) (t : Nat) : (backTo s t).fab = s.fab := rfl
/-- `backTo` keeps `thl`. -/
@[simp] theorem backTo_thl (s : State) (t : Nat) : (backTo s t).thl = s.thl := rfl
/-- `backTo` keeps `rgn`. -/
@[simp] theorem backTo_rgn (s : State) (t : Nat) : (backTo s t).rgn = s.rgn := rfl
/-- `backTo` keeps `frm`. -/
@[simp] theorem backTo_frm (s : State) (t : Nat) : (backTo s t).frm = s.frm := rfl
/-- `backTo` keeps `acc`. -/
@[simp] theorem backTo_acc (s : State) (t : Nat) : (backTo s t).acc = s.acc := rfl
/-- `backTo` keeps `dec`. -/
@[simp] theorem backTo_dec (s : State) (t : Nat) : (backTo s t).dec = s.dec := rfl
/-- `backTo` keeps `upd`. -/
@[simp] theorem backTo_upd (s : State) (t : Nat) : (backTo s t).upd = s.upd := rfl
/-- `backTo` keeps `cch`. -/
@[simp] theorem backTo_cch (s : State) (t : Nat) : (backTo s t).cch = s.cch := rfl
/-- `backTo` keeps `dir`. -/
@[simp] theorem backTo_dir (s : State) (t : Nat) : (backTo s t).dir = s.dir := rfl
/-- `backTo` keeps `obs`. -/
@[simp] theorem backTo_obs (s : State) (t : Nat) : (backTo s t).obs = s.obs := rfl
/-- `backTo` keeps `arb`. -/
@[simp] theorem backTo_arb (s : State) (t : Nat) : (backTo s t).arb = s.arb := rfl
/-- `backTo` keeps `ras`. -/
@[simp] theorem backTo_ras (s : State) (t : Nat) : (backTo s t).ras = s.ras := rfl
/-- `backTo` keeps `pwr`. -/
@[simp] theorem backTo_pwr (s : State) (t : Nat) : (backTo s t).pwr = s.pwr := rfl
/-- `backTo` keeps `spr`. -/
@[simp] theorem backTo_spr (s : State) (t : Nat) : (backTo s t).spr = s.spr := rfl
/-- `backTo` keeps `mbn`. -/
@[simp] theorem backTo_mbn (s : State) (t : Nat) : (backTo s t).mbn = s.mbn := rfl
/-- `backTo` keeps `mbs`. -/
@[simp] theorem backTo_mbs (s : State) (t : Nat) : (backTo s t).mbs = s.mbs := rfl
/-- `backTo` keeps `drawn`. -/
@[simp] theorem backTo_drawn (s : State) (t : Nat) : (backTo s t).drawn = s.drawn := rfl
/-- `backTo` keeps `pending`. -/
@[simp] theorem backTo_pending (s : State) (t : Nat) : (backTo s t).pending = s.pending := rfl

/-! ### `tickTo` -/

/-- `tickTo` keeps `straps`. -/
@[simp] theorem tickTo_straps (s : State) (t : Nat) : (tickTo s t).straps = s.straps := rfl
/-- `tickTo` keeps `regs`. -/
@[simp] theorem tickTo_regs (s : State) (t : Nat) : (tickTo s t).regs = s.regs := rfl
/-- `tickTo` keeps `fab`. -/
@[simp] theorem tickTo_fab (s : State) (t : Nat) : (tickTo s t).fab = s.fab := rfl
/-- `tickTo` keeps `thl`. -/
@[simp] theorem tickTo_thl (s : State) (t : Nat) : (tickTo s t).thl = s.thl := rfl
/-- `tickTo` keeps `rgn`. -/
@[simp] theorem tickTo_rgn (s : State) (t : Nat) : (tickTo s t).rgn = s.rgn := rfl
/-- `tickTo` keeps `frm`. -/
@[simp] theorem tickTo_frm (s : State) (t : Nat) : (tickTo s t).frm = s.frm := rfl
/-- `tickTo` keeps `acc`. -/
@[simp] theorem tickTo_acc (s : State) (t : Nat) : (tickTo s t).acc = s.acc := rfl
/-- `tickTo` keeps `dec`. -/
@[simp] theorem tickTo_dec (s : State) (t : Nat) : (tickTo s t).dec = s.dec := rfl
/-- `tickTo` keeps `upd`. -/
@[simp] theorem tickTo_upd (s : State) (t : Nat) : (tickTo s t).upd = s.upd := rfl
/-- `tickTo` keeps `cch`. -/
@[simp] theorem tickTo_cch (s : State) (t : Nat) : (tickTo s t).cch = s.cch := rfl
/-- `tickTo` keeps `dir`. -/
@[simp] theorem tickTo_dir (s : State) (t : Nat) : (tickTo s t).dir = s.dir := rfl
/-- `tickTo` keeps `obs`. -/
@[simp] theorem tickTo_obs (s : State) (t : Nat) : (tickTo s t).obs = s.obs := rfl
/-- `tickTo` keeps `arb`. -/
@[simp] theorem tickTo_arb (s : State) (t : Nat) : (tickTo s t).arb = s.arb := rfl
/-- `tickTo` keeps `ras`. -/
@[simp] theorem tickTo_ras (s : State) (t : Nat) : (tickTo s t).ras = s.ras := rfl
/-- `tickTo` keeps `pwr`. -/
@[simp] theorem tickTo_pwr (s : State) (t : Nat) : (tickTo s t).pwr = s.pwr := rfl
/-- `tickTo` keeps `spr`. -/
@[simp] theorem tickTo_spr (s : State) (t : Nat) : (tickTo s t).spr = s.spr := rfl
/-- `tickTo` keeps `mbn`. -/
@[simp] theorem tickTo_mbn (s : State) (t : Nat) : (tickTo s t).mbn = s.mbn := rfl
/-- `tickTo` keeps `mbs`. -/
@[simp] theorem tickTo_mbs (s : State) (t : Nat) : (tickTo s t).mbs = s.mbs := rfl
/-- `tickTo` keeps `drawn`. -/
@[simp] theorem tickTo_drawn (s : State) (t : Nat) : (tickTo s t).drawn = s.drawn := rfl
/-- `tickTo` keeps `pending`. -/
@[simp] theorem tickTo_pending (s : State) (t : Nat) : (tickTo s t).pending = s.pending := rfl

/-! ### `writeCell` -/

/-- `writeCell` keeps `now`. -/
@[simp] theorem writeCell_now (s : State) (y b r c : Nat) (v : BitVec 144) : (writeCell s y b r c v).now = s.now := rfl
/-- `writeCell` keeps `straps`. -/
@[simp] theorem writeCell_straps (s : State) (y b r c : Nat) (v : BitVec 144) : (writeCell s y b r c v).straps = s.straps := rfl
/-- `writeCell` keeps `regs`. -/
@[simp] theorem writeCell_regs (s : State) (y b r c : Nat) (v : BitVec 144) : (writeCell s y b r c v).regs = s.regs := rfl
/-- `writeCell` keeps `fab`. -/
@[simp] theorem writeCell_fab (s : State) (y b r c : Nat) (v : BitVec 144) : (writeCell s y b r c v).fab = s.fab := rfl
/-- `writeCell` keeps `rgn`. -/
@[simp] theorem writeCell_rgn (s : State) (y b r c : Nat) (v : BitVec 144) : (writeCell s y b r c v).rgn = s.rgn := rfl
/-- `writeCell` keeps `frm`. -/
@[simp] theorem writeCell_frm (s : State) (y b r c : Nat) (v : BitVec 144) : (writeCell s y b r c v).frm = s.frm := rfl
/-- `writeCell` keeps `acc`. -/
@[simp] theorem writeCell_acc (s : State) (y b r c : Nat) (v : BitVec 144) : (writeCell s y b r c v).acc = s.acc := rfl
/-- `writeCell` keeps `dec`. -/
@[simp] theorem writeCell_dec (s : State) (y b r c : Nat) (v : BitVec 144) : (writeCell s y b r c v).dec = s.dec := rfl
/-- `writeCell` keeps `upd`. -/
@[simp] theorem writeCell_upd (s : State) (y b r c : Nat) (v : BitVec 144) : (writeCell s y b r c v).upd = s.upd := rfl
/-- `writeCell` keeps `cch`. -/
@[simp] theorem writeCell_cch (s : State) (y b r c : Nat) (v : BitVec 144) : (writeCell s y b r c v).cch = s.cch := rfl
/-- `writeCell` keeps `dir`. -/
@[simp] theorem writeCell_dir (s : State) (y b r c : Nat) (v : BitVec 144) : (writeCell s y b r c v).dir = s.dir := rfl
/-- `writeCell` keeps `obs`. -/
@[simp] theorem writeCell_obs (s : State) (y b r c : Nat) (v : BitVec 144) : (writeCell s y b r c v).obs = s.obs := rfl
/-- `writeCell` keeps `arb`. -/
@[simp] theorem writeCell_arb (s : State) (y b r c : Nat) (v : BitVec 144) : (writeCell s y b r c v).arb = s.arb := rfl
/-- `writeCell` keeps `ras`. -/
@[simp] theorem writeCell_ras (s : State) (y b r c : Nat) (v : BitVec 144) : (writeCell s y b r c v).ras = s.ras := rfl
/-- `writeCell` keeps `pwr`. -/
@[simp] theorem writeCell_pwr (s : State) (y b r c : Nat) (v : BitVec 144) : (writeCell s y b r c v).pwr = s.pwr := rfl
/-- `writeCell` keeps `spr`. -/
@[simp] theorem writeCell_spr (s : State) (y b r c : Nat) (v : BitVec 144) : (writeCell s y b r c v).spr = s.spr := rfl
/-- `writeCell` keeps `mbn`. -/
@[simp] theorem writeCell_mbn (s : State) (y b r c : Nat) (v : BitVec 144) : (writeCell s y b r c v).mbn = s.mbn := rfl
/-- `writeCell` keeps `mbs`. -/
@[simp] theorem writeCell_mbs (s : State) (y b r c : Nat) (v : BitVec 144) : (writeCell s y b r c v).mbs = s.mbs := rfl
/-- `writeCell` keeps `drawn`. -/
@[simp] theorem writeCell_drawn (s : State) (y b r c : Nat) (v : BitVec 144) : (writeCell s y b r c v).drawn = s.drawn := rfl
/-- `writeCell` keeps `pending`. -/
@[simp] theorem writeCell_pending (s : State) (y b r c : Nat) (v : BitVec 144) : (writeCell s y b r c v).pending = s.pending := rfl

end Sys2Proof.Machine
end

