-- ==== Sys2Proof/Laws/Receive.lean ====
section
/-!
SUPPORT. Laws of packets at the input: what an accepted request comes to, fields of built headers, and operands of the register rows.
-/

namespace Sys2Proof.Machine

/-! ### The register file -/

/-- A register just stored reads back. -/
@[simp] theorem rg_rgSet_same (s : State) (k : Nat) (v : Word) : (s.rgSet k v).rg k = v := by
  simp [State.rg, State.rgSet]

/-- Storing one register leaves another. -/
theorem rg_rgSet_other (s : State) (k j : Nat) (v : Word) (h : j ≠ k) : (s.rgSet k v).rg j = s.rg j := by
  simp only [State.rg, State.rgSet]
  exact smGetD_smSet_other _ _ _ _ _ _ h

/-- A register read depends on the register file and the build alone. -/
theorem rg_congr {a b : State} (h : a.regs = b.regs) (hs : a.straps = b.straps) (k : Nat) : a.rg k = b.rg k := by
  simp [State.rg, h, hs]

/-! ### Time does not move the straps -/

@[simp] theorem advance_straps (s : State) (t : Nat) : (advance s t).straps = s.straps := rfl
@[simp] theorem advance_now (s : State) (t : Nat) : (advance s t).now = max s.now t := rfl
@[simp] theorem dueBy_straps (s : State) (c : Nat) : (dueBy s c).straps = s.straps := rfl
@[simp] theorem dueBy_now (s : State) (c : Nat) : (dueBy s c).now = max s.now c := rfl
@[simp] theorem dueFor_straps (s : State) (h : BitVec 256) (c : Nat) : (dueFor s h c).straps = s.straps := by unfold dueFor; split <;> rfl
@[simp] theorem dueFor_now (s : State) (h : BitVec 256) (c : Nat) : (dueFor s h c).now = max s.now c := by unfold dueFor; split <;> rfl
@[simp] theorem lookUp_straps (s : State) (h : BitVec 256) (vc : Nat) : (lookUp s h vc).straps = s.straps := by unfold lookUp; split <;> rfl
@[simp] theorem lookUp_now (s : State) (h : BitVec 256) (vc : Nat) : (lookUp s h vc).now = s.now := by unfold lookUp; split <;> rfl

theorem Recorded.refl (a : State) : Recorded a a := rfl
theorem Recorded.trans {a b c : State} (h : Recorded a b) (g : Recorded b c) : Recorded a c := Eq.trans g h
theorem Recorded.now {a b : State} (h : Recorded a b) : b.now = a.now := congrArg (·.1) h
theorem Recorded.straps {a b : State} (h : Recorded a b) : b.straps = a.straps := congrArg (·.2.1) h
theorem Recorded.thl {a b : State} (h : Recorded a b) : b.thl = a.thl := congrArg (·.2.2.1) h
theorem Recorded.rgn {a b : State} (h : Recorded a b) : b.rgn = a.rgn := congrArg (·.2.2.2.1) h
theorem Recorded.frm {a b : State} (h : Recorded a b) : b.frm = a.frm := congrArg (·.2.2.2.2.1) h
theorem Recorded.acc {a b : State} (h : Recorded a b) : b.acc = a.acc := congrArg (·.2.2.2.2.2.1) h
theorem Recorded.dec {a b : State} (h : Recorded a b) : b.dec = a.dec := congrArg (·.2.2.2.2.2.2.1) h
theorem Recorded.upd {a b : State} (h : Recorded a b) : b.upd = a.upd := congrArg (·.2.2.2.2.2.2.2.1) h
theorem Recorded.cch {a b : State} (h : Recorded a b) : b.cch = a.cch := congrArg (·.2.2.2.2.2.2.2.2.1) h
theorem Recorded.dir {a b : State} (h : Recorded a b) : b.dir = a.dir := congrArg (·.2.2.2.2.2.2.2.2.2.1) h
theorem Recorded.arb {a b : State} (h : Recorded a b) : b.arb = a.arb := congrArg (·.2.2.2.2.2.2.2.2.2.2.1) h
theorem Recorded.spr {a b : State} (h : Recorded a b) : b.spr = a.spr := congrArg (·.2.2.2.2.2.2.2.2.2.2.2.1) h
theorem Recorded.mbn {a b : State} (h : Recorded a b) : b.mbn = a.mbn := congrArg (·.2.2.2.2.2.2.2.2.2.2.2.2.1) h
theorem Recorded.mbs {a b : State} (h : Recorded a b) : b.mbs = a.mbs := congrArg (·.2.2.2.2.2.2.2.2.2.2.2.2.2.1) h
theorem Recorded.drawn {a b : State} (h : Recorded a b) : b.drawn = a.drawn := congrArg (·.2.2.2.2.2.2.2.2.2.2.2.2.2.2.1) h
theorem Recorded.pending {a b : State} (h : Recorded a b) : b.pending = a.pending := congrArg (·.2.2.2.2.2.2.2.2.2.2.2.2.2.2.2.1) h
theorem Recorded.fab {a b : State} (h : Recorded a b) :
    { b.fab with out := [], ints := [], smcInts := [] } = { a.fab with out := [], ints := [], smcInts := [] } :=
  congrArg (·.2.2.2.2.2.2.2.2.2.2.2.2.2.2.2.2.1) h
theorem Recorded.pwr {a b : State} (h : Recorded a b) : { b.pwr with smc := .off } = { a.pwr with smc := .off } :=
  congrArg (·.2.2.2.2.2.2.2.2.2.2.2.2.2.2.2.2.2.1) h
theorem Recorded.fsAt {a b : State} (h : Recorded a b) : b.ras.fsAt = a.ras.fsAt := congrArg (·.2.2.2.2.2.2.2.2.2.2.2.2.2.2.2.2.2.2.1) h
theorem Recorded.halted {a b : State} (h : Recorded a b) : b.obs.halted = a.obs.halted :=
  congrArg (·.2.2.2.2.2.2.2.2.2.2.2.2.2.2.2.2.2.2.2) h
theorem Recorded.reqs {a b : State} (h : Recorded a b) : b.fab.reqs = a.fab.reqs := by
  have := congrArg FabricSt.reqs h.fab; exact this
theorem Recorded.tiers {a b : State} (h : Recorded a b) : b.pwr.tiers = a.pwr.tiers := by
  have := congrArg PwrSt.tiers h.pwr; exact this

theorem steady_rgSet (s : State) (k : Nat) (v : Word) : Recorded s (s.rgSet k v) := rfl
theorem steady_rgFld (s : State) (k hi lo v : Nat) : Recorded s (s.rgFld k hi lo v) := rfl
theorem steady_obs (s : State) (x : ObsSt) (h : x.halted = s.obs.halted) : Recorded s { s with obs := x } := by
  unfold Recorded quietPart; simp only [h]
theorem steady_ras (s : State) (x : RasSt) (h : x.fsAt = s.ras.fsAt) : Recorded s { s with ras := x } := by
  unfold Recorded quietPart; simp only [h]
theorem steady_fab (s : State) (x : FabricSt)
    (h : { x with out := [], ints := [], smcInts := [] } = { s.fab with out := [], ints := [], smcInts := [] }) :
    Recorded s { s with fab := x } := by
  unfold Recorded quietPart; simp only [h]
theorem steady_pwr (s : State) (x : PwrSt) (h : { x with smc := .off } = { s.pwr with smc := .off }) : Recorded s { s with pwr := x } := by
  unfold Recorded quietPart; simp only [h]

theorem steady_smcPowerUp (s : State) : Recorded s (smcPowerUp s) := by
  unfold smcPowerUp
  split
  · exact .trans (steady_rgFld _ _ _ _ _) (steady_pwr _ _ rfl)
  · exact steady_rgFld _ _ _ _ _
  · exact .refl _

theorem steady_sendInt (s : State) (i : IntTxn) (at_ : Nat) : Recorded s (sendInt s i at_) := by
  unfold sendInt
  split
  · exact steady_fab _ _ rfl
  · exact .trans (steady_fab _ _ rfl) (steady_fab _ _ rfl)

theorem steady_raiseInt (s : State) (page : Nat) : Recorded s (raiseInt s page) := by
  unfold raiseInt
  simp only []
  split
  · exact .refl _
  · split
    · exact .trans (steady_fab _ _ rfl) (steady_smcPowerUp _)
    · exact steady_sendInt _ _ _

theorem steady_logFirst (s : State) (page b info : Nat) : Recorded s (logFirst s page b info) := by
  unfold logFirst
  simp only []
  split
  · exact .trans (steady_rgSet _ _ _) (steady_ras _ _ rfl)
  · exact .refl _

theorem steady_logGlobal (s : State) (page b : Nat) : Recorded s (logGlobal s page b) := by
  unfold logGlobal
  simp only []
  split
  · exact .trans (steady_rgSet _ _ _) (steady_ras _ _ rfl)
  · exact .refl _

theorem steady_logErrCore (s : State) (page b info : Nat) : Recorded s (logErrCore s page b info) := by
  have h : Recorded s (logGlobal (logFirst (logSticky s page b) page b info) page b) :=
    .trans (.trans (steady_rgSet _ _ _) (steady_logFirst _ _ _ _)) (steady_logGlobal _ _ _)
  unfold logErrCore
  simp only []
  split
  · exact .trans h (steady_raiseInt _ _)
  · exact h

theorem steady_haltCond (s : State) (b : Nat) : Recorded s (haltCond s b) := by
  unfold haltCond
  split
  · exact steady_obs _ _ rfl
  · exact .refl _

theorem steady_sramWriteN (s : State) (d u lo n : Nat) : Recorded s (sramWriteN s d u lo n) := by
  unfold sramWriteN
  simp only []
  split
  · exact .trans (steady_rgFld _ _ _ _ _) (steady_ras _ _ rfl)
  · exact steady_ras _ _ rfl

theorem steady_trcLose (s : State) (r : Nat) : Recorded s (trcLose s r) := .trans (steady_rgSet _ _ _) (steady_logErrCore _ _ _ _)

theorem steady_trcPut (s : State) (r : BitVec 128) : Recorded s (trcPut s r) := by
  unfold trcPut
  simp only []
  split
  · refine .trans ?_ (steady_haltCond _ _)
    refine .trans ?_ (steady_logErrCore _ _ _ _)
    refine .trans (.trans (steady_obs _ _ ?_) (steady_sramWriteN _ _ _ _ _)) (steady_obs _ _ ?_) <;> rfl
  · refine .trans (steady_obs _ _ ?_) (steady_sramWriteN _ _ _ _ _); rfl

theorem steady_trcCrowd (s : State) (r : BitVec 128) : Recorded s (trcCrowd s r) := by
  unfold trcCrowd
  simp only []
  split
  · exact steady_trcLose _ _
  · split
    · refine .trans (steady_obs _ _ ?_) (steady_trcLose _ _); rfl
    · refine .trans (steady_obs _ _ ?_) (steady_trcLose _ _); rfl

theorem steady_trace (s : State) (a b c : Nat) : Recorded s (trace s a b c) := by
  unfold trace
  split
  · exact .refl _
  · split
    · exact steady_trcCrowd _ _
    · exact steady_trcPut _ _

theorem steady_logErr (s : State) (page b info : Nat) : Recorded s (logErr s page b info) := by
  unfold logErr
  simp only []
  split
  · exact steady_logErrCore _ _ _ _
  · exact .trans (steady_logErrCore _ _ _ _) (steady_trace _ _ _ _)

theorem steady_pmuWrap (s : State) (n : Nat) : Recorded s (pmuWrap s n) := by
  have h : Recorded s (haltCond (evtPulse (trace (logErr s 0x0F n (mkFld 15 0 s.frm.frameNo)) 4 0 n) 0x09 n) 1) :=
    .trans (.trans (steady_logErr _ _ _ _) (.trans (steady_trace _ _ _ _) (steady_obs _ _ rfl))) (steady_haltCond _ _)
  unfold pmuWrap
  simp only []
  split
  · refine .trans h ?_
    generalize haltCond _ 1 = a
    exact .trans (steady_rgFld a _ _ _ _) (steady_obs _ _ rfl)
  · exact h

theorem steady_pmuSet (s : State) (n v : Nat) : Recorded s (pmuSet s n v) := .trans (steady_rgSet _ _ _) (steady_rgSet _ _ _)

theorem steady_pmuAdd (s : State) (n k : Nat) : Recorded s (pmuAdd s n k) := by
  unfold pmuAdd
  simp only []
  split
  · exact .trans (steady_pmuSet _ _ _) (steady_pmuWrap _ _)
  · exact steady_pmuSet _ _ _

/-- Folding steady operations is steady. -/
theorem steady_foldl {β : Type} (f : State → β → State) (hf : ∀ s x, Recorded s (f s x)) (l : List β) (s : State) : Recorded s (l.foldl f s) := by
  induction l generalizing s with
  | nil => exact .refl _
  | cons x l ih => exact .trans (hf s x) (ih _)

theorem steady_pmuRing (s : State) (code n : Nat) (ring : Option Nat) : Recorded s (pmuRing s code n ring) := by
  unfold pmuRing
  split
  · exact .refl _
  · refine steady_foldl _ (fun s i => ?_) _ _
    split
    · exact steady_pmuAdd _ _ _
    · exact .refl _

theorem steady_pmuReq (s : State) (code : Nat) (h : BitVec 256) : Recorded s (pmuReq s code h) := by
  unfold pmuReq
  split
  · exact .refl _
  · exact steady_pmuRing _ _ _ _

theorem steady_traceReq (s : State) (h : BitVec 256) : Recorded s (traceReq s h) := by
  unfold traceReq
  simp only []
  split
  · exact steady_trace _ _ _ _
  · exact .refl _

/-- A credit that arrives touches the port units alone. -/
theorem creditIn_fab (s : State) (vc : Nat) : ∃ x, creditIn s vc = { s with fab := x } := by
  unfold creditIn
  split
  · exact ⟨s.fab, rfl⟩
  · exact ⟨_, rfl⟩

/-- Credits that arrive touch the port units alone. -/
theorem takeCredits_fab (s : State) (p : CPacket) : ∃ x, takeCredits s p = { s with fab := x } := by
  unfold takeCredits
  generalize p.flits = fs
  induction fs generalizing s with
  | nil => exact ⟨s.fab, rfl⟩
  | cons f fs ih =>
    simp only [List.foldl_cons]
    split
    · obtain ⟨y, hy⟩ := creditIn_fab s f.crvc.toNat
      obtain ⟨x, hx⟩ := ih { s with fab := y }
      exact ⟨x, by rw [hy, hx]⟩
    · exact ih s

/-- Sinking a packet touches the port units alone. -/
theorem sink_fab (s : State) (p : CPacket) : ∃ x, sink s p = { s with fab := x } := by
  obtain ⟨x, hx⟩ := takeCredits_fab s p
  unfold sink oweCredits
  simp only [hx]
  split
  · exact ⟨_, rfl⟩
  · exact ⟨x, rfl⟩

@[simp] theorem sink_now (s : State) (p : CPacket) : (sink s p).now = s.now := by obtain ⟨x, hx⟩ := sink_fab s p; rw [hx]
@[simp] theorem sink_straps (s : State) (p : CPacket) : (sink s p).straps = s.straps := by obtain ⟨x, hx⟩ := sink_fab s p; rw [hx]
@[simp] theorem atInput_now (s : State) (t : Nat) (p : CPacket) : (atInput s t p).now = max s.now t := by simp [atInput]
@[simp] theorem atInput_straps (s : State) (t : Nat) (p : CPacket) : (atInput s t p).straps = s.straps := by simp [atInput]

@[simp] theorem counted_now (s : State) (t : Nat) (p : CPacket) : (counted s t p).now = max s.now t := by
  rw [counted, lookUp_now, (steady_pmuReq _ _ _).now, atInput_now]
@[simp] theorem counted_straps (s : State) (t : Nat) (p : CPacket) : (counted s t p).straps = s.straps := by
  rw [counted, lookUp_straps, (steady_pmuReq _ _ _).straps, atInput_straps]
@[simp] theorem atStage12_straps (s : State) (t : Nat) (p : CPacket) : (atStage12 s t p).straps = s.straps := by
  rw [atStage12, (steady_traceReq _ _).straps, dueFor_straps, counted_straps]
@[simp] theorem atStage12_now (s : State) (t : Nat) (p : CPacket) : (atStage12 s t p).now = max s.now t + 7 := by
  rw [atStage12, (steady_traceReq _ _).now, dueFor_now, counted_now]; omega

/-! ### What an accepted request comes to -/

theorem heard_spec {s : State} {t : Nat} {p : CPacket} (h : heard s t p = true) :
    inReset (advance s t) = false ∧ s.straps.fused = false ∧ shellServes (atInput s t p) = false ∧ wellReceived (atInput s t p) p = true ∧
      failed (atInput s t p) = false := by
  simpa [heard, and_assoc] using h

theorem onRequest_spec {p : CPacket} (h : onRequest p = true) : p.vc.toNat = 0 ∨ p.vc.toNat = 4 := by
  simpa [onRequest] using h

/-- A heard packet on REQ or MGMT is a request. -/
theorem receive_heard {s : State} {t : Nat} {p : CPacket} (h : heard s t p = true) (hv : onRequest p = true) :
    receive s t p = requestIn (atInput s t p) p := by
  obtain ⟨h1, h2, h3, h4, h5⟩ := heard_spec h
  have hv' := onRequest_spec hv
  unfold receive packetIn portsInReset
  rw [if_neg (by simp [h1])]
  simp only [show sink (advance s t) p = atInput s t p from rfl]
  rw [if_neg (by simp [byShell, h2, h3]), if_neg (by simp [h4]), if_neg (by simp [h5]), if_neg (by omega), if_pos hv']

theorem failed_pmuReq (s : State) (code : Nat) (h : BitVec 256) : failed (pmuReq s code h) = failed s := by
  unfold failed; rw [(steady_pmuReq _ _ _).fsAt]

/-- A refusal says that the look-up was sound, and at which stage the request failed. -/
theorem refusal_spec {s : State} {t : Nat} {p : CPacket} {n : Nack} (hr : refusal s t p = some n) :
    failed (counted s t p) = false ∧ firstRefusal (counted s t p) p.head p.vc.toNat = some n := by
  unfold refusal at hr
  split at hr
  · rename_i h; exact ⟨by simpa [tableSound] using h, hr⟩
  · cases hr

/-- A refused request is answered by its check stage. -/
theorem receive_refused {s : State} {t : Nat} {p : CPacket} {n : Nack} (h : heard s t p = true) (hv : onRequest p = true)
    (hr : refusal s t p = some n) : receive s t p = refuseReq (counted s t p) p.head p.vc.toNat n := by
  obtain ⟨hf, hn⟩ := refusal_spec hr
  rw [receive_heard h hv]
  unfold requestIn
  simp only [show lookUp (pmuReq (atInput s t p) 0x50 p.head) p.head p.vc.toNat = counted s t p from rfl, hf, hn]
  simp

theorem accepted_runs {s : State} {t : Nat} {p : CPacket} (h : accepted s t p = true) : failed (atStage12 s t p) = false := by
  simp only [accepted, Bool.and_eq_true] at h
  simpa using h.2

/-- An accepted request is served at stage 12, by the region that its check hit. -/
theorem receive_accepted {s : State} {t : Nat} {p : CPacket} (h : accepted s t p = true) :
    receive s t p = backTo (serveReq (dueFor (counted s t p) p.head (max s.now t + 7)) p (regionOf s t p) (max s.now t)) (max s.now t) := by
  simp only [accepted, Bool.and_eq_true] at h
  obtain ⟨⟨⟨⟨h1, h2⟩, h3⟩, h4⟩, -⟩ := h
  have hf : failed (counted s t p) = false := by simpa [tableSound] using h3
  have hn : firstRefusal (counted s t p) p.head p.vc.toNat = none := by simpa [refusal, h3] using h4
  rw [receive_heard h1 h2]
  unfold requestIn
  simp only [show lookUp (pmuReq (atInput s t p) 0x50 p.head) p.head p.vc.toNat = counted s t p from rfl, hf, hn]
  simp [acceptReq, regionOf]

theorem accepted_nop {s : State} {t : Nat} {p : CPacket} (h : accepted s t p = true) (ho : hOpcode p.head = 0) :
    receive s t p = backTo (answerOpen (atStage12 s t p) p.head p.vc.toNat ok 0 (max s.now t + 8)) (max s.now t) := by
  rw [receive_accepted h]; simp [serveReq, ho, atStage12]

theorem accepted_read {s : State} {t : Nat} {p : CPacket} (h : accepted s t p = true) (ho : hOpcode p.head = 0x30) :
    receive s t p = backTo (serveReg (atStage12 s t p) p.head p.vc.toNat (max s.now t)) (max s.now t) := by
  rw [receive_accepted h]; simp [serveReq, ho, atStage12]

theorem accepted_write {s : State} {t : Nat} {p : CPacket} (h : accepted s t p = true) (ho : hOpcode p.head = 0x31) :
    receive s t p = backTo (answerWrite p.head p.vc.toNat (max s.now t) (regWrite (atStage12 s t p) p.head)) (max s.now t) := by
  rw [receive_accepted h]; simp [serveReq, ho, atStage12]

end Sys2Proof.Machine
end

