-- ==== Sys2Proof/Laws/Headers.lean ====
section
/-!
SUPPORT. Laws of header flits: the fields of a header the slice builds, of the operand forms of the register rows, and of an answer.
-/

namespace Sys2Proof.Machine

/-! ### Fields of a built header -/

theorem mkHead_toNat (op re at_ tx : Nat) (src dst : Nat × Nat × Nat) (ad pa : Nat) :
    (mkHead op re at_ tx src dst ad pa).toNat = mkFld 6 0 op + mkFld 11 8 re + mkFld 23 12 at_ + mkFld 31 24 tx
    + mkFld 41 32 src.2.1 + mkFld 43 42 src.1 + mkFld 58 44 src.2.2
    + mkFld 73 64 dst.2.1 + mkFld 75 74 dst.1 + mkFld 90 76 dst.2.2
    + mkFld 151 96 ad + mkFld 223 160 pa := by
  unfold mkHead
  rw [BitVec.toNat_ofNat, Nat.mod_eq_of_lt]
  simp only [mkFld]
  simp only [Nat.reduceAdd, Nat.reduceSub, Nat.reducePow, Nat.mul_one]
  omega

theorem hOpcode_mkHead (op re at_ tx : Nat) (src dst : Nat × Nat × Nat) (ad pa : Nat) :
    hOpcode (mkHead op re at_ tx src dst ad pa) = op % 128 := by
  simp only [hOpcode, fld, mkHead_toNat, mkFld, Nat.shiftRight_eq_div_pow]
  simp only [Nat.reduceAdd, Nat.reduceSub, Nat.reducePow, Nat.div_one, Nat.mul_one]
  omega
theorem hResp_mkHead (op re at_ tx : Nat) (src dst : Nat × Nat × Nat) (ad pa : Nat) :
    hResp (mkHead op re at_ tx src dst ad pa) = re % 16 := by
  simp only [hResp, fld, mkHead_toNat, mkFld, Nat.shiftRight_eq_div_pow]
  simp only [Nat.reduceAdd, Nat.reduceSub, Nat.reducePow, Nat.mul_one]
  omega
theorem hTxn_mkHead (op re at_ tx : Nat) (src dst : Nat × Nat × Nat) (ad pa : Nat) :
    hTxn (mkHead op re at_ tx src dst ad pa) = tx % 256 := by
  simp only [hTxn, fld, mkHead_toNat, mkFld, Nat.shiftRight_eq_div_pow]
  simp only [Nat.reduceAdd, Nat.reduceSub, Nat.reducePow, Nat.mul_one]
  omega
theorem hDst_mkHead (op re at_ tx : Nat) (src dst : Nat × Nat × Nat) (ad pa : Nat) :
    hDst (mkHead op re at_ tx src dst ad pa) = (dst.1 % 4, dst.2.1 % 1024, dst.2.2 % 32768) := by
  simp only [hDst, fld, mkHead_toNat, mkFld, Nat.shiftRight_eq_div_pow]
  simp only [Nat.reduceAdd, Nat.reduceSub, Nat.reducePow, Nat.mul_one, Prod.mk.injEq]
  omega
theorem hParam_mkHead (op re at_ tx : Nat) (src dst : Nat × Nat × Nat) (ad pa : Nat) :
    hParam (mkHead op re at_ tx src dst ad pa) = pa % 2 ^ 64 := by
  simp only [hParam, fld, mkHead_toNat, mkFld, Nat.shiftRight_eq_div_pow]
  simp only [Nat.reduceAdd, Nat.reduceSub, Nat.reducePow, Nat.mul_one]
  omega
theorem hAddr_mkHead (op re at_ tx : Nat) (src dst : Nat × Nat × Nat) (ad pa : Nat) :
    hAddr (mkHead op re at_ tx src dst ad pa) = ad % 2 ^ 56 := by
  simp only [hAddr, fld, mkHead_toNat, mkFld, Nat.shiftRight_eq_div_pow]
  simp only [Nat.reduceAdd, Nat.reduceSub, Nat.reducePow, Nat.mul_one]
  omega

/-! ### Answers -/

/-- An answer just sent is the answer it says. -/
theorem answered_answerOpen (s : State) (p : CPacket) (code param at_ : Nat) (hc : code < 16) (hp : param < 2 ^ 64) :
    Answered (answerOpen s p.head p.vc.toNat code param at_) p code param at_ := by
  have h1 : hTxn p.head < 2 ^ (31 + 1 - 24) := fld_lt _ _ _
  have h2 : fld p.head 43 42 < 2 ^ (43 + 1 - 42) := fld_lt _ _ _
  have h3 : fld p.head 41 32 < 2 ^ (41 + 1 - 32) := fld_lt _ _ _
  have h4 : fld p.head 58 44 < 2 ^ (58 + 1 - 44) := fld_lt _ _ _
  refine ⟨_, by simp [answerOpen, send]; rfl, rfl, rfl, rfl, ?_, ?_, ?_, ?_, ?_⟩
  · simp [respHead, hOpcode_mkHead]
  · simp only [respHead, hResp_mkHead]; omega
  · simp only [respHead, hTxn_mkHead]; omega
  · simp only [respHead, hDst_mkHead, hSrc, hSrcType, hSrcId, hSrcChip, Prod.mk.injEq]; omega
  · simp only [respHead, hParam_mkHead]; omega

/-- What is answered is a matter of the output queue. -/
theorem answered_congr {a b : State} {p : CPacket} {code param at_ : Nat} (h : b.fab.out = a.fab.out) (ha : Answered a p code param at_) :
    Answered b p code param at_ := by
  unfold Answered at *; rwa [h]

/-! ### Operand forms -/

@[simp] theorem withHead_head (p : CPacket) (h : BitVec 256) : (p.withHead h).head = h := rfl
@[simp] theorem withHead_vc (p : CPacket) (h : BitVec 256) : (p.withHead h).vc = p.vc := rfl
@[simp] theorem withHead_payload (p : CPacket) (h : BitVec 256) : (p.withHead h).payload = p.payload := rfl
@[simp] theorem withOp_vc (p : CPacket) (op : Nat) : (withOp p op).vc = p.vc := by unfold withOp; rw [withHead_vc]
@[simp] theorem readOf_vc (p : CPacket) (g o : Nat) : (readOf p g o).vc = p.vc := by unfold readOf; rw [withHead_vc]
@[simp] theorem writeOf_vc (p : CPacket) (g o : Nat) : (writeOf p g o).vc = p.vc := by unfold writeOf; rw [withHead_vc]
@[simp] theorem withBits_vc (p : CPacket) (on off : List Nat) : (withBits p on off).vc = p.vc := by unfold withBits; rw [withHead_vc]
@[simp] theorem actOf_vc (p : CPacket) (g o : Nat) (on off : List Nat) : (actOf p g o on off).vc = p.vc := by
  unfold actOf; rw [withBits_vc, writeOf_vc]

theorem hOpcode_withOp (p : CPacket) (op : Nat) (h : op < 128) : hOpcode (withOp p op).head = op := by
  unfold withOp hOpcode
  rw [withHead_head, fld_setFld_same _ 6 0 op (by decide) (by decide)]
  exact Nat.mod_eq_of_lt h

theorem hOpcode_readOf (p : CPacket) (g o : Nat) : hOpcode (readOf p g o).head = 0x30 := by
  unfold readOf hOpcode
  rw [withHead_head, fld_setFld_other _ 112 96 _ 6 0 (by decide) (by decide) (by decide), fld_setFld_same _ 6 0 _ (by decide) (by decide)] <;> rfl

theorem hOpcode_writeOf (p : CPacket) (g o : Nat) : hOpcode (writeOf p g o).head = 0x31 := by
  unfold writeOf hOpcode
  rw [withHead_head, fld_setFld_other _ 112 96 _ 6 0 (by decide) (by decide) (by decide), fld_setFld_same _ 6 0 _ (by decide) (by decide)] <;> rfl

theorem rPage_readOf (p : CPacket) (g o : Nat) (hg : g < 32) (ho : o < 4096) : rPage (readOf p g o).head = g := by
  unfold readOf rPage
  rw [withHead_head, fld_setFld_within _ 112 96 _ 112 108 (by decide) (by decide) (by decide) (by decide)]
  simp only [Nat.reduceAdd, Nat.reduceSub, Nat.reducePow]; omega

theorem rOfs_readOf (p : CPacket) (g o : Nat) (ho : o < 4096) : rOfs (readOf p g o).head = o := by
  unfold readOf rOfs
  rw [withHead_head, fld_setFld_within _ 112 96 _ 107 96 (by decide) (by decide) (by decide) (by decide)]
  simp only [Nat.reduceAdd, Nat.reduceSub, Nat.reducePow]; omega

theorem rPage_writeOf (p : CPacket) (g o : Nat) (hg : g < 32) (ho : o < 4096) : rPage (writeOf p g o).head = g := by
  unfold writeOf rPage
  rw [withHead_head, fld_setFld_within _ 112 96 _ 112 108 (by decide) (by decide) (by decide) (by decide)]
  simp only [Nat.reduceAdd, Nat.reduceSub, Nat.reducePow]; omega

theorem rOfs_writeOf (p : CPacket) (g o : Nat) (ho : o < 4096) : rOfs (writeOf p g o).head = o := by
  unfold writeOf rOfs
  rw [withHead_head, fld_setFld_within _ 112 96 _ 107 96 (by decide) (by decide) (by decide) (by decide)]
  simp only [Nat.reduceAdd, Nat.reduceSub, Nat.reducePow]; omega

/-- A register row keeps the word the packet carries in PARAM. -/
theorem hParam_writeOf (p : CPacket) (g o : Nat) : hParam (writeOf p g o).head = hParam p.head := by
  unfold writeOf hParam
  rw [withHead_head, fld_setFld_other _ 112 96 _ _ _ (by decide) (by decide) (by decide), fld_setFld_other _ 6 0 _ _ _ (by decide) (by decide) (by decide)]

@[simp] theorem hData_writeOf (p : CPacket) (g o : Nat) : hData (writeOf p g o).head = hData p.head := by
  unfold hData; rw [hParam_writeOf]

/-! ### Action bits -/

/-- Setting bits of PARAM one after another leaves a field outside PARAM's low word. -/
theorem fld_setBits (v : Nat) (l : List Nat) (h : BitVec 256) (hi lo : Nat) (hl : ∀ b ∈ l, b < 32) (hd : hi < 160 ∨ 192 ≤ lo) :
    fld (l.foldl (fun h b => setFld h (160 + b) (160 + b) v) h) hi lo = fld h hi lo := by
  induction l generalizing h with
  | nil => rfl
  | cons b l ih =>
    have hb := hl b (by simp)
    rw [List.foldl_cons, ih _ (fun c hc => hl c (by simp [hc])),
      fld_setFld_other _ _ _ _ _ _ (Nat.le_refl _) (by omega) (by omega)]

/-- A bit of PARAM after setting bits of it one after another. -/
theorem bit_setBits (v : Nat) (l : List Nat) (h : BitVec 256) (i : Nat) (hl : ∀ b ∈ l, b < 32) :
    bit (l.foldl (fun h b => setFld h (160 + b) (160 + b) v) h) (160 + i) = if i ∈ l then v.testBit 0 else bit h (160 + i) := by
  induction l generalizing h with
  | nil => simp
  | cons b l ih =>
    have hb := hl b (by simp)
    rw [List.foldl_cons, ih _ (fun c hc => hl c (by simp [hc])), bit_setFld _ _ _ _ _ (Nat.le_refl _) (by omega)]
    by_cases h1 : i ∈ l
    · simp [h1]
    · by_cases h2 : i = b
      · subst h2; simp [h1]
      · rw [if_neg h1, if_neg (by omega), if_neg (by simp [h1, h2])]

theorem withBits_head (p : CPacket) (on off : List Nat) : (withBits p on off).head =
    off.foldl (fun h b => setFld h (160 + b) (160 + b) 0) (on.foldl (fun h b => setFld h (160 + b) (160 + b) 1) p.head) := by
  unfold withBits; rw [withHead_head]

/-- Fields outside PARAM's low word are those of the packet. -/
theorem fld_withBits (p : CPacket) (on off : List Nat) (hi lo : Nat) (hon : ∀ b ∈ on, b < 32) (hoff : ∀ b ∈ off, b < 32)
    (hd : hi < 160 ∨ 192 ≤ lo) : fld (withBits p on off).head hi lo = fld p.head hi lo := by
  rw [withBits_head, fld_setBits _ _ _ _ _ hoff hd, fld_setBits _ _ _ _ _ hon hd]

/-- The bits of the word a write carries. -/
theorem bit_dataWord (h : BitVec 256) (i : Nat) (hi : i < 32) : bit (hData h) i = bit h (160 + i) := by
  unfold bit hData
  rw [← BitVec.testBit_toNat, BitVec.toNat_ofNat, Nat.testBit_mod_two_pow, hParam, testBit_fld]
  simp [hi, show i < 64 by omega, bit]

/-- The bits a register row fixes. -/
theorem bit_withBits (p : CPacket) (on off : List Nat) (i : Nat) (hon : ∀ b ∈ on, b < 32) (hoff : ∀ b ∈ off, b < 32) (hi : i < 32) :
    bit (hData (withBits p on off).head) i =
      if i ∈ off then false else if i ∈ on then true else bit (hData p.head) i := by
  rw [bit_dataWord _ _ hi, bit_dataWord _ _ hi, withBits_head, bit_setBits _ _ _ _ hoff, bit_setBits _ _ _ _ hon]
  simp

theorem hOpcode_actOf (p : CPacket) (g o : Nat) (on off : List Nat) (hon : ∀ b ∈ on, b < 32) (hoff : ∀ b ∈ off, b < 32) :
    hOpcode (actOf p g o on off).head = 0x31 := by
  unfold actOf
  rw [hOpcode, fld_withBits _ _ _ _ _ hon hoff (by omega)]
  exact hOpcode_writeOf p g o

theorem rPage_actOf (p : CPacket) (g o : Nat) (on off : List Nat) (hon : ∀ b ∈ on, b < 32) (hoff : ∀ b ∈ off, b < 32) (hg : g < 32)
    (ho : o < 4096) : rPage (actOf p g o on off).head = g := by
  unfold actOf
  rw [rPage, fld_withBits _ _ _ _ _ hon hoff (by omega)]
  exact rPage_writeOf p g o hg ho

theorem rOfs_actOf (p : CPacket) (g o : Nat) (on off : List Nat) (hon : ∀ b ∈ on, b < 32) (hoff : ∀ b ∈ off, b < 32) (ho : o < 4096) :
    rOfs (actOf p g o on off).head = o := by
  unfold actOf
  rw [rOfs, fld_withBits _ _ _ _ _ hon hoff (by omega)]
  exact rOfs_writeOf p g o ho

theorem bit_actOf (p : CPacket) (g o : Nat) (on off : List Nat) (i : Nat) (hon : ∀ b ∈ on, b < 32) (hoff : ∀ b ∈ off, b < 32) (hi : i < 32) :
    bit (hData (actOf p g o on off).head) i =
      if i ∈ off then false else if i ∈ on then true else bit (hData p.head) i := by
  unfold actOf
  rw [bit_withBits _ _ _ _ hon hoff hi, hData_writeOf]

end Sys2Proof.Machine
end

