-- ==== Sys2Proof/Laws/Access.lean ====
section
/-!
SUPPORT. Laws of register accesses: the next state of an accepted read or write in terms of what the register does.
-/

namespace Sys2Proof.Machine

/-- The slice after an access that `r` describes: its state with the answer behind the output queue, back at the sclk of the header. -/
def accessed (s : State) (t : Nat) (q : CPacket) (r : RegAns) : State :=
  { answerOpen r.st q.head q.vc.toNat r.code r.word.toNat (max s.now t + r.delay) with
    now := max s.now t, pending := s.pending, straps := s.straps }

/-- An accepted read leads to the state its register's rule names. -/
theorem ran_read {s : State} {t : Nat} {q : CPacket} {r : RegAns} (ha : accepted s t q = true) (ho : hOpcode q.head = 0x30)
    (hv : viewWaits (atStage12 s t q) q.head = false) (hr : regRead (atStage12 s t q) q.head = r) (hd : r.delay < 16)
    (hn : failed r.st = false) : ran s (receive s t q) = .next (accessed s t q r) := by
  rw [accepted_read ha ho]
  unfold serveReg answerReg
  simp only [hv, hr, hn]
  rw [if_neg (by simp)]
  simp only []
  rw [if_neg (by simp), if_neg (by omega)]
  simp [ran, accessed, backTo] <;> omega

/-- Marking the last packet with no order does nothing. -/
@[simp] theorem markOrder_none (s : State) : markOrder s none = s := by
  unfold markOrder
  split <;> simp_all

/-- An accepted write that orders nothing for later leads to the state its register's rule names. -/
theorem ran_write {s : State} {t : Nat} {q : CPacket} {r : RegAns} (ha : accepted s t q = true) (ho : hOpcode q.head = 0x31)
    (hk : orderOf (rPage q.head) (rOfs q.head) (hData q.head) = none) (hr : regWrite (atStage12 s t q) q.head = r) (hd : r.delay < 16) (hn : failed r.st = false) :
    ran s (receive s t q) = .next (accessed s t q r) := by
  rw [accepted_write ha ho, hr]
  unfold answerWrite answerReg
  simp only [hn, hk]
  rw [if_neg (by simp), if_neg (by omega)]
  simp [ran, accessed, backTo] <;> omega

@[simp] theorem accessed_now (s : State) (t : Nat) (q : CPacket) (r : RegAns) : (accessed s t q r).now = max s.now t := rfl
@[simp] theorem accessed_pending (s : State) (t : Nat) (q : CPacket) (r : RegAns) : (accessed s t q r).pending = s.pending := rfl
@[simp] theorem accessed_straps (s : State) (t : Nat) (q : CPacket) (r : RegAns) : (accessed s t q r).straps = s.straps := rfl
@[simp] theorem accessed_regs (s : State) (t : Nat) (q : CPacket) (r : RegAns) : (accessed s t q r).regs = r.st.regs := rfl
@[simp] theorem accessed_thl (s : State) (t : Nat) (q : CPacket) (r : RegAns) : (accessed s t q r).thl = r.st.thl := rfl
@[simp] theorem accessed_rgn (s : State) (t : Nat) (q : CPacket) (r : RegAns) : (accessed s t q r).rgn = r.st.rgn := rfl
@[simp] theorem accessed_frm (s : State) (t : Nat) (q : CPacket) (r : RegAns) : (accessed s t q r).frm = r.st.frm := rfl
@[simp] theorem accessed_acc (s : State) (t : Nat) (q : CPacket) (r : RegAns) : (accessed s t q r).acc = r.st.acc := rfl
@[simp] theorem accessed_dec (s : State) (t : Nat) (q : CPacket) (r : RegAns) : (accessed s t q r).dec = r.st.dec := rfl
@[simp] theorem accessed_upd (s : State) (t : Nat) (q : CPacket) (r : RegAns) : (accessed s t q r).upd = r.st.upd := rfl
@[simp] theorem accessed_cch (s : State) (t : Nat) (q : CPacket) (r : RegAns) : (accessed s t q r).cch = r.st.cch := rfl
@[simp] theorem accessed_dir (s : State) (t : Nat) (q : CPacket) (r : RegAns) : (accessed s t q r).dir = r.st.dir := rfl
@[simp] theorem accessed_obs (s : State) (t : Nat) (q : CPacket) (r : RegAns) : (accessed s t q r).obs = r.st.obs := rfl
@[simp] theorem accessed_arb (s : State) (t : Nat) (q : CPacket) (r : RegAns) : (accessed s t q r).arb = r.st.arb := rfl
@[simp] theorem accessed_ras (s : State) (t : Nat) (q : CPacket) (r : RegAns) : (accessed s t q r).ras = r.st.ras := rfl
@[simp] theorem accessed_pwr (s : State) (t : Nat) (q : CPacket) (r : RegAns) : (accessed s t q r).pwr = r.st.pwr := rfl
@[simp] theorem accessed_spr (s : State) (t : Nat) (q : CPacket) (r : RegAns) : (accessed s t q r).spr = r.st.spr := rfl
@[simp] theorem accessed_mbn (s : State) (t : Nat) (q : CPacket) (r : RegAns) : (accessed s t q r).mbn = r.st.mbn := rfl
@[simp] theorem accessed_mbs (s : State) (t : Nat) (q : CPacket) (r : RegAns) : (accessed s t q r).mbs = r.st.mbs := rfl
@[simp] theorem accessed_drawn (s : State) (t : Nat) (q : CPacket) (r : RegAns) : (accessed s t q r).drawn = r.st.drawn := rfl

/-- Registers after an access are those of the rule's state. -/
theorem accessed_rg {s : State} {t : Nat} {q : CPacket} {r : RegAns} (h : r.st.straps = s.straps) (k : Nat) :
    (accessed s t q r).rg k = r.st.rg k := by
  simp [State.rg, h]

/-- The access is answered. -/
theorem accessed_answered (s : State) (t : Nat) (q : CPacket) (r : RegAns) (hc : r.code < 16) :
    Answered (accessed s t q r) q r.code r.word.toNat (max s.now t + r.delay) :=
  answered_congr rfl (answered_answerOpen r.st q r.code r.word.toNat _ hc (by have := r.word.isLt; omega))

/-- The port units after an access whose rule leaves them. -/
theorem accessed_ports {s : State} {t : Nat} {q : CPacket} {r : RegAns} {a : State} (h : r.st.fab = a.fab) : samePorts a (accessed s t q r) := by
  unfold samePorts accessed answerOpen send
  simp only [h]
  exact ⟨trivial, _, rfl⟩

/-- A register access that leaves fail-stop alone leaves an accepting slice running. -/
theorem accepted_still {s st : State} {t : Nat} {q : CPacket} (ha : accepted s t q = true) (hn : st.ras.fsAt = (atStage12 s t q).ras.fsAt) :
    failed st = false := by
  unfold failed; rw [hn]; exact accepted_runs ha

/-- An accepted write is done as its register's rule says, in the state `a` that stage 12 finds. -/
theorem done_write {s a : State} {t : Nat} {q : CPacket} {st u : State} {code : Nat} {keys : List Nat} (ha : accepted s t q = true)
    (hA : atStage12 s t q = a) (ho : hOpcode q.head = 0x31) (hk : orderOf (rPage q.head) (rOfs q.head) (hData q.head) = none)
    (hr : regWrite a q.head = ⟨st, code, 8, 0⟩) (hc : code < 16) (hs : st.straps = a.straps) (hregs : sameRegsBut keys a st)
    (hu : sameUnits u st) (hf : st.fab = a.fab) (hn : st.ras.fsAt = a.ras.fsAt) :
    ∃ b, ran s (receive s t q) = .next b ∧ Done s t q code keys u b ∧ (∀ k, b.rg k = st.rg k) ∧ b.ras = st.ras := by
  subst hA
  rw [atStage12_straps] at hs
  refine ⟨_, ran_write ha ho hk hr (show 8 < 16 by decide) (accepted_still ha hn), ⟨accessed_answered s t q ⟨st, code, 8, 0⟩ hc, ?_, ?_, accessed_ports hf, rfl, rfl⟩,
    fun k => accessed_rg hs k, rfl⟩
  · intro k hk'; rw [accessed_rg hs k]; exact hregs k hk'
  · obtain ⟨h0, h⟩ := hu
    exact ⟨hs.symm.trans h0, h⟩

/-- An accepted write whose rule does more than store: its answer, and the state it leads to. -/
theorem written {s a : State} {t : Nat} {q : CPacket} {st : State} {keys : List Nat} (ha : accepted s t q = true)
    (hA : atStage12 s t q = a) (ho : hOpcode q.head = 0x31) (hk : orderOf (rPage q.head) (rOfs q.head) (hData q.head) = none)
    (hr : regWrite a q.head = RegAns.done st) (hs : st.straps = a.straps) (hregs : sameRegsBut keys a st)
    (hn : st.ras.fsAt = a.ras.fsAt) :
    ∃ b, ran s (receive s t q) = .next b ∧ Written s t q keys b ∧ (∀ k, b.rg k = st.rg k) ∧ sameUnits st b ∧
      b.fab = { st.fab with out := b.fab.out } := by
  subst hA
  rw [atStage12_straps] at hs
  refine ⟨_, ran_write ha ho hk hr (show 8 < 16 by decide) (accepted_still ha hn),
    ⟨accessed_answered s t q (RegAns.done st) (show ok < 16 by decide), ?_, rfl, rfl, rfl⟩, fun k => accessed_rg hs k,
    ⟨hs.symm, rfl, rfl, rfl, rfl, rfl, rfl, rfl, rfl, rfl, rfl, rfl, rfl, rfl, rfl, rfl, rfl⟩, rfl⟩
  intro k hk'; rw [accessed_rg hs k]; exact hregs k hk'

/-- An accepted read is done as its register's rule says, in the state `a` that stage 12 finds. -/
theorem done_read {s a : State} {t : Nat} {q : CPacket} {st u : State} {at_ : Nat} {w : Word} {keys : List Nat} (ha : accepted s t q = true)
    (hA : atStage12 s t q = a) (ho : hOpcode q.head = 0x30) (hv : viewWaits a q.head = false) (hr : regRead a q.head = ⟨st, ok, at_, w⟩) (hd : at_ < 16)
    (hs : st.straps = a.straps) (hregs : sameRegsBut keys a st) (hu : sameUnits u st) (hf : st.fab = a.fab)
    (hn : st.ras.fsAt = a.ras.fsAt) :
    ∃ b, ran s (receive s t q) = .next b ∧ ReadOut s t q w at_ keys u b ∧ (∀ k, b.rg k = st.rg k) ∧ b.ras = st.ras := by
  subst hA
  rw [atStage12_straps] at hs
  refine ⟨_, ran_read ha ho hv hr hd (accepted_still ha hn), ⟨accessed_answered s t q ⟨st, ok, at_, w⟩ (show ok < 16 by decide), ?_, ?_, accessed_ports hf, rfl, rfl⟩,
    fun k => accessed_rg hs k, rfl⟩
  · intro k hk'; rw [accessed_rg hs k]; exact hregs k hk'
  · obtain ⟨h0, h⟩ := hu
    exact ⟨hs.symm.trans h0, h⟩

/-- An accepted read of any outcome. -/
theorem read_any {s a : State} {t : Nat} {q : CPacket} {r : RegAns} (ha : accepted s t q = true)
    (hA : atStage12 s t q = a) (ho : hOpcode q.head = 0x30) (hv : viewWaits a q.head = false) (hr : regRead a q.head = r) (hd : r.delay < 16)
    (hc : r.code < 16) (hs : r.st.straps = a.straps) (hn : failed r.st = false) :
    ∃ b, ran s (receive s t q) = .next b ∧ Answered b q r.code r.word.toNat (max s.now t + r.delay) ∧ (∀ k, b.rg k = r.st.rg k) ∧
      sameUnits r.st b ∧ b.fab = { r.st.fab with out := b.fab.out } ∧ b.now = max s.now t ∧ b.pending = s.pending := by
  subst hA
  rw [atStage12_straps] at hs
  exact ⟨_, ran_read ha ho hv hr hd hn, accessed_answered s t q r hc, fun k => accessed_rg hs k,
    ⟨hs.symm, rfl, rfl, rfl, rfl, rfl, rfl, rfl, rfl, rfl, rfl, rfl, rfl, rfl, rfl, rfl, rfl⟩, rfl, rfl, rfl⟩

/-- A block register outside the mailbox pages: past the checks of R497 its page's rules act. -/
theorem regWrite_block {a : State} {h : BitVec 256} {g o : Nat} {d : Word} (hg : rPage h = g) (ho : rOfs h = o) (hd : hData h = d)
    (hb : badValue a.straps.build g o d = false) (hn : needsS g o d = false ∨ hS h = true) (h40 : 0x040 ≤ o) (hm : g ≠ 0x0C ∧ g ≠ 0x0D)
    (hD : debugOnly g o = false) : regWrite a h = blockWrite a h g o d := by
  unfold regWrite
  simp only [hg, ho, hd, hb]
  rw [if_neg (by simp), if_neg (by rcases hn with h | h <;> simp [h]), if_neg (by omega), if_neg (by simp [hD]), if_neg hm.1, if_neg hm.2]

theorem regWrite_writeOf {a : State} {p : CPacket} {g o : Nat} (hb : badValue a.straps.build g o (hData p.head) = false)
    (hn : needsS g o (hData p.head) = false ∨ hS (writeOf p g o).head = true) (h40 : 0x040 ≤ o) (hm : g ≠ 0x0C ∧ g ≠ 0x0D) (hg : g < 32)
    (ho : o < 4096) (hD : debugOnly g o = false) : regWrite a (writeOf p g o).head = blockWrite a (writeOf p g o).head g o (hData p.head) :=
  regWrite_block (rPage_writeOf p g o hg ho) (rOfs_writeOf p g o ho) (hData_writeOf p g o) hb hn h40 hm hD

theorem regWrite_actOf {a : State} {p : CPacket} {g o : Nat} {on off : List Nat} (hon : ∀ b ∈ on, b < 32) (hoff : ∀ b ∈ off, b < 32)
    (hb : badValue a.straps.build g o (hData (actOf p g o on off).head) = false)
    (hn : needsS g o (hData (actOf p g o on off).head) = false ∨ hS (actOf p g o on off).head = true) (h40 : 0x040 ≤ o)
    (hm : g ≠ 0x0C ∧ g ≠ 0x0D) (hg : g < 32) (ho : o < 4096)
    (hD : debugOnly g o = false) : regWrite a (actOf p g o on off).head = blockWrite a (actOf p g o on off).head g o (hData (actOf p g o on off).head) :=
  regWrite_block (rPage_actOf p g o on off hon hoff hg ho) (rOfs_actOf p g o on off hon hoff ho) rfl hb hn h40 hm hD

theorem sameUnits.refl (a : State) : sameUnits a a := ⟨rfl, rfl, rfl, rfl, rfl, rfl, rfl, rfl, rfl, rfl, rfl, rfl, rfl, rfl, rfl, rfl, rfl⟩

theorem sameUnits.trans {a b c : State} (h : sameUnits a b) (g : sameUnits b c) : sameUnits a c := by
  unfold sameUnits at *
  simp_all

/-- Storing registers leaves the units. -/
theorem sameUnits_rgSet (s : State) (k : Nat) (v : Word) : sameUnits s (s.rgSet k v) :=
  ⟨rfl, rfl, rfl, rfl, rfl, rfl, rfl, rfl, rfl, rfl, rfl, rfl, rfl, rfl, rfl, rfl, rfl⟩
theorem sameUnits_rgFld (s : State) (k hi lo v : Nat) : sameUnits s (s.rgFld k hi lo v) := sameUnits_rgSet _ _ _
theorem sameUnits_storeWord (s : State) (g o : Nat) (d : Word) : sameUnits s (storeWord s g o d) := sameUnits_rgSet _ _ _
@[simp] theorem storeWord_fab (s : State) (g o : Nat) (d : Word) : (storeWord s g o d).fab = s.fab := by unfold storeWord; rfl
@[simp] theorem storeWord_straps (s : State) (g o : Nat) (d : Word) : (storeWord s g o d).straps = s.straps := by unfold storeWord; rfl

end Sys2Proof.Machine
end

