-- ==== Sys2Proof/Laws/Recording.lean ====
section
/-!
SUPPORT. Laws of recording: the registers that an error record, a trace record or a counted event may touch.
-/

namespace Sys2Proof.Machine

theorem sameRegsBut.refl (l : List Nat) (a : State) : sameRegsBut l a a := fun _ _ => rfl
theorem sameRegsBut.trans {l : List Nat} {a b c : State} (h : sameRegsBut l a b) (g : sameRegsBut l b c) : sameRegsBut l a c :=
  fun k hk => (g k hk).trans (h k hk)
theorem sameRegsBut.mono {l m : List Nat} {a b : State} (h : sameRegsBut l a b) (hs : ∀ k ∈ l, k ∈ m) : sameRegsBut m a b :=
  fun k hk => h k fun hl => hk (hs k hl)

/-- Storing a register of the list. -/
theorem sameRegs_rgSet {l : List Nat} (s : State) (k : Nat) (v : Word) (h : k ∈ l) : sameRegsBut l s (s.rgSet k v) :=
  fun _ hj => rg_rgSet_other _ _ _ _ fun e => hj (e ▸ h)
theorem sameRegs_rgFld {l : List Nat} (s : State) (k hi lo v : Nat) (h : k ∈ l) : sameRegsBut l s (s.rgFld k hi lo v) :=
  sameRegs_rgSet _ _ _ h
/-- An update that keeps the register file and the straps. -/
theorem sameRegs_of {l : List Nat} {a b : State} (h : b.regs = a.regs) (hs : b.straps = a.straps) : sameRegsBut l a b :=
  fun k _ => rg_congr h hs k

/-! An update of one unit keeps the registers. -/

theorem sameRegs_now {l : List Nat} (s : State) (x : Nat) : sameRegsBut l s { s with now := x } := fun _ _ => rg_congr rfl rfl _
theorem sameRegs_fab {l : List Nat} (s : State) (x : FabricSt) : sameRegsBut l s { s with fab := x } := fun _ _ => rg_congr rfl rfl _
theorem sameRegs_thl {l : List Nat} (s : State) (x : ThlSt) : sameRegsBut l s { s with thl := x } := fun _ _ => rg_congr rfl rfl _
theorem sameRegs_rgn {l : List Nat} (s : State) (x : RgnSt) : sameRegsBut l s { s with rgn := x } := fun _ _ => rg_congr rfl rfl _
theorem sameRegs_frm {l : List Nat} (s : State) (x : FrmSt) : sameRegsBut l s { s with frm := x } := fun _ _ => rg_congr rfl rfl _
theorem sameRegs_acc {l : List Nat} (s : State) (x : AccSt) : sameRegsBut l s { s with acc := x } := fun _ _ => rg_congr rfl rfl _
theorem sameRegs_dec {l : List Nat} (s : State) (x : DecSt) : sameRegsBut l s { s with dec := x } := fun _ _ => rg_congr rfl rfl _
theorem sameRegs_upd {l : List Nat} (s : State) (x : UpdSt) : sameRegsBut l s { s with upd := x } := fun _ _ => rg_congr rfl rfl _
theorem sameRegs_cch {l : List Nat} (s : State) (x : CchSt) : sameRegsBut l s { s with cch := x } := fun _ _ => rg_congr rfl rfl _
theorem sameRegs_dir {l : List Nat} (s : State) (x : DirSt) : sameRegsBut l s { s with dir := x } := fun _ _ => rg_congr rfl rfl _
theorem sameRegs_obs {l : List Nat} (s : State) (x : ObsSt) : sameRegsBut l s { s with obs := x } := fun _ _ => rg_congr rfl rfl _
theorem sameRegs_arb {l : List Nat} (s : State) (x : ArbSt) : sameRegsBut l s { s with arb := x } := fun _ _ => rg_congr rfl rfl _
theorem sameRegs_ras {l : List Nat} (s : State) (x : RasSt) : sameRegsBut l s { s with ras := x } := fun _ _ => rg_congr rfl rfl _
theorem sameRegs_pwr {l : List Nat} (s : State) (x : PwrSt) : sameRegsBut l s { s with pwr := x } := fun _ _ => rg_congr rfl rfl _
theorem sameRegs_spr {l : List Nat} (s : State) (x : SprSt) : sameRegsBut l s { s with spr := x } := fun _ _ => rg_congr rfl rfl _
theorem sameRegs_mbn {l : List Nat} (s : State) (x : MbxCh) : sameRegsBut l s { s with mbn := x } := fun _ _ => rg_congr rfl rfl _
theorem sameRegs_mbs {l : List Nat} (s : State) (x : MbxCh) : sameRegsBut l s { s with mbs := x } := fun _ _ => rg_congr rfl rfl _
theorem sameRegs_pending {l : List Nat} (s : State) (x : List Instr) : sameRegsBut l s { s with pending := x } := fun _ _ => rg_congr rfl rfl _
theorem sameRegs_drawn {l : List Nat} (s : State) (x : Nat) : sameRegsBut l s { s with drawn := x } := fun _ _ => rg_congr rfl rfl _

theorem sameRegs_smcPowerUp {l : List Nat} (s : State) (h : rk 0x0B 0x040 ∈ l) : sameRegsBut l s (smcPowerUp s) := by
  unfold smcPowerUp
  split
  · exact .trans (sameRegs_rgFld _ _ _ _ _ h) (sameRegs_pwr _ _)
  · exact sameRegs_rgFld _ _ _ _ _ h
  · exact .refl _ _

theorem sameRegs_sendInt {l : List Nat} (s : State) (i : IntTxn) (at_ : Nat) : sameRegsBut l s (sendInt s i at_) := by
  unfold sendInt
  split
  · exact sameRegs_fab _ _
  · exact .trans (sameRegs_fab _ _) (sameRegs_fab _ _)

theorem sameRegs_raiseInt {l : List Nat} (s : State) (page : Nat) (h : rk 0x0B 0x040 ∈ l) : sameRegsBut l s (raiseInt s page) := by
  unfold raiseInt
  simp only []
  split
  · exact .refl _ _
  · split
    · exact .trans (sameRegs_fab _ _) (sameRegs_smcPowerUp _ h)
    · exact sameRegs_sendInt _ _ _

theorem sameRegs_logFirst {l : List Nat} (s : State) (page b info : Nat) (h : rk page 0x018 ∈ l) : sameRegsBut l s (logFirst s page b info) := by
  unfold logFirst
  simp only []
  split
  · exact .trans (sameRegs_rgSet _ _ _ h) (sameRegs_ras _ _)
  · exact .refl _ _

theorem sameRegs_logGlobal {l : List Nat} (s : State) (page b : Nat) (h : rk 0x09 0x04C ∈ l) : sameRegsBut l s (logGlobal s page b) := by
  unfold logGlobal
  simp only []
  split
  · exact .trans (sameRegs_rgSet _ _ _ h) (sameRegs_ras _ _)
  · exact .refl _ _

/-- An error record touches the page's sticky and first-error registers, the slice's first error, and DOMAIN_CTL when the interrupt wakes the
SMC. -/
theorem sameRegs_logErrCore {l : List Nat} (s : State) (page b info : Nat) (h1 : rk page 0x010 ∈ l) (h2 : rk page 0x018 ∈ l)
    (h3 : rk 0x09 0x04C ∈ l) (h4 : rk 0x0B 0x040 ∈ l) : sameRegsBut l s (logErrCore s page b info) := by
  have h : sameRegsBut l s (logGlobal (logFirst (logSticky s page b) page b info) page b) :=
    .trans (.trans (sameRegs_rgSet _ _ _ h1) (sameRegs_logFirst _ _ _ _ h2)) (sameRegs_logGlobal _ _ _ h3)
  unfold logErrCore
  simp only []
  split
  · exact .trans h (sameRegs_raiseInt _ _ h4)
  · exact h

theorem sameRegs_haltCond {l : List Nat} (s : State) (b : Nat) : sameRegsBut l s (haltCond s b) := by
  unfold haltCond
  split
  · exact sameRegs_obs _ _
  · exact .refl _ _

theorem sameRegs_sramWriteN {l : List Nat} (s : State) (d u lo n : Nat) (h : rk 0x09 0x08C ∈ l) : sameRegsBut l s (sramWriteN s d u lo n) := by
  unfold sramWriteN
  simp only []
  split
  · exact .trans (sameRegs_rgFld _ kInj _ _ _ h) (sameRegs_ras _ _)
  · exact sameRegs_ras _ _

theorem sameRegs_trcLose {l : List Nat} (s : State) (r : Nat) (h : ∀ k ∈ traceKeys, k ∈ l) : sameRegsBut l s (trcLose s r) :=
  .trans (sameRegs_rgSet _ _ _ (h _ (by decide)))
    (sameRegs_logErrCore _ _ _ _ (h _ (by decide)) (h _ (by decide)) (h _ (by decide)) (h _ (by decide)))

theorem sameRegs_trcPut {l : List Nat} (s : State) (r : BitVec 128) (h : ∀ k ∈ traceKeys, k ∈ l) : sameRegsBut l s (trcPut s r) := by
  unfold trcPut
  simp only []
  split
  · refine .trans ?_ (sameRegs_haltCond _ _)
    refine .trans ?_ (sameRegs_logErrCore _ _ _ _ (h _ (by decide)) (h _ (by decide)) (h _ (by decide)) (h _ (by decide)))
    exact .trans (.trans (sameRegs_obs _ _) (sameRegs_sramWriteN _ _ _ _ _ (h _ (by decide)))) (sameRegs_obs _ _)
  · exact .trans (sameRegs_obs _ _) (sameRegs_sramWriteN _ _ _ _ _ (h _ (by decide)))

theorem sameRegs_trcCrowd {l : List Nat} (s : State) (r : BitVec 128) (h : ∀ k ∈ traceKeys, k ∈ l) : sameRegsBut l s (trcCrowd s r) := by
  unfold trcCrowd
  simp only []
  split
  · exact sameRegs_trcLose _ _ h
  · split
    · exact .trans (sameRegs_obs _ _) (sameRegs_trcLose _ _ h)
    · exact .trans (sameRegs_obs _ _) (sameRegs_trcLose _ _ h)

/-- A trace record touches registers of `traceKeys` alone. -/
theorem sameRegs_trace {l : List Nat} (s : State) (a b c : Nat) (h : ∀ k ∈ traceKeys, k ∈ l) : sameRegsBut l s (trace s a b c) := by
  unfold trace
  split
  · exact .refl _ _
  · split
    · exact sameRegs_trcCrowd _ _ h
    · exact sameRegs_trcPut _ _ h

/-- An error record with its trace record. -/
theorem sameRegs_logErr {l : List Nat} (s : State) (page b info : Nat) (h1 : rk page 0x010 ∈ l) (h2 : rk page 0x018 ∈ l)
    (h : ∀ k ∈ traceKeys, k ∈ l) : sameRegsBut l s (logErr s page b info) := by
  have hc := sameRegs_logErrCore (l := l) s page b info h1 h2 (h _ (by decide)) (h _ (by decide))
  unfold logErr
  simp only []
  split
  · exact hc
  · exact .trans hc (sameRegs_trace _ _ _ _ h)

/-- Folding operations that keep the registers outside the list. -/
theorem sameRegs_foldl {l : List Nat} {β : Type} (f : State → β → State) (hf : ∀ s x, sameRegsBut l s (f s x)) (xs : List β) (s : State) :
    sameRegsBut l s (xs.foldl f s) := by
  induction xs generalizing s with
  | nil => exact .refl _ _
  | cons x xs ih => exact .trans (hf s x) (ih _)

end Sys2Proof.Machine
end

