-- ==== Sys2Proof/Laws/Memory.lean ====
section
/-!
SUPPORT. Laws of stored chunks: every operation on the thallus keeps its canonical form, and reset's memory has it.
-/

namespace Sys2Proof.Machine

/-! ### Keys of cells -/

theorem cellKey_col (t bank row col : Nat) (hc : col < 64) : cellKey t bank row col % 64 = col := by unfold cellKey; omega
theorem cellKey_row (t bank row col : Nat) (hr : row < 1032) (hc : col < 64) : cellKey t bank row col / 64 % 1032 = row := by
  unfold cellKey; omega
theorem cellKey_bank (t bank row col : Nat) (hb : bank < 16) (hr : row < 1032) (hc : col < 64) :
    cellKey t bank row col / (64 * 1032) % 16 = bank := by unfold cellKey; omega
theorem cellKey_tier (t bank row col : Nat) (hb : bank < 16) (hr : row < 1032) (hc : col < 64) :
    cellKey t bank row col / (64 * 1032 * 16) = t := by unfold cellKey; omega

/-- Different cells have different keys. -/
theorem cellKey_inj {t bank row col t' bank' row' col' : Nat} (hb : bank < 16) (hr : row < 1032) (hc : col < 64) (hb' : bank' < 16)
    (hr' : row' < 1032) (hc' : col' < 64) (h : cellKey t bank row col = cellKey t' bank' row' col') :
    (t, bank, row, col) = (t', bank', row', col') := by
  have h1 := cellKey_col t bank row col hc
  have h2 := cellKey_row t bank row col hr hc
  have h3 := cellKey_bank t bank row col hb hr hc
  have h4 := cellKey_tier t bank row col hb hr hc
  rw [h, cellKey_col _ _ _ _ hc'] at h1
  rw [h, cellKey_row _ _ _ _ hr' hc'] at h2
  rw [h, cellKey_bank _ _ _ _ hb' hr' hc'] at h3
  rw [h, cellKey_tier _ _ _ _ hb' hr' hc'] at h4
  simp [h1, h2, h3, h4]

/-! ### The canonical form -/

/-- An entry is one that the canonical form may list. -/
def cellListed (s : State) (e : Nat × BitVec 144) : Bool :=
  cellUndefined s (e.1 / (64 * 1032 * 16)) (e.1 / 64 % 1032) ||
    decide (e.2 ≠ cellBase s (e.1 / (64 * 1032 * 16)) (e.1 / (64 * 1032) % 16) (e.1 / 64 % 1032) (e.1 % 64))

theorem memory_wf_iff (s : State) : Memory.wf s = true ↔ smSorted s.thl.cells = true ∧ ∀ e ∈ s.thl.cells, cellListed s e = true := by
  unfold Memory.wf
  rw [Bool.and_eq_true, List.all_eq_true]
  exact Iff.rfl

/-- What an unlisted cell reads as is a matter of the tier's base and generation. -/
theorem cellListed_congr {a b : State} (hb : b.thl.base = a.thl.base) (hg : b.thl.gen = a.thl.gen) (e : Nat × BitVec 144) :
    cellListed b e = cellListed a e := by
  unfold cellListed cellUndefined cellBase
  rw [hb, hg]

/-- The canonical form is a matter of the cells, the bases and the generations. -/
theorem memory_wf_congr {a b : State} (hc : b.thl.cells = a.thl.cells) (hb : b.thl.base = a.thl.base) (hg : b.thl.gen = a.thl.gen) :
    Memory.wf b = Memory.wf a := by
  rw [Bool.eq_iff_iff, memory_wf_iff, memory_wf_iff, hc]
  simp only [cellListed_congr hb hg]

/-- An operation that leaves the thallus keeps the form. -/
theorem memory_wf_thl {a b : State} (h : b.thl = a.thl) : Memory.wf b = Memory.wf a := memory_wf_congr (by rw [h]) (by rw [h]) (by rw [h])

/-- Writing a chunk keeps the form. -/
theorem memory_wf_writeCell {s : State} {t bank row col : Nat} (c : BitVec 144) (hb : bank < 16) (hr : row < 1032) (hc : col < 64)
    (h : Memory.wf s = true) : Memory.wf (writeCell s t bank row col c) = true := by
  rw [memory_wf_iff] at h ⊢
  have hcl : ∀ e, cellListed (writeCell s t bank row col c) e = cellListed s e := cellListed_congr rfl rfl
  simp only [hcl]
  unfold writeCell
  simp only []
  split
  · rename_i hu
    refine ⟨smSorted_smPut _ _ _ h.1, fun e he => ?_⟩
    rcases mem_smPut _ _ _ _ he with rfl | he
    · unfold cellListed
      simp only [cellKey_tier t bank row col hb hr hc, cellKey_row t bank row col hr hc, hu, Bool.true_or]
    · exact h.2 e he
  · refine ⟨smSorted_smSet _ _ _ _ h.1, fun e he => ?_⟩
    unfold smSet at he
    split at he
    · exact h.2 e (mem_of_mem_smDel _ _ _ he)
    · rename_i hv
      rcases mem_smPut _ _ _ _ he with rfl | he
      · unfold cellListed
        simp only [cellKey_tier t bank row col hb hr hc, cellKey_row t bank row col hr hc, cellKey_bank t bank row col hb hr hc,
          cellKey_col t bank row col hc, ne_eq, hv, not_false_eq_true, decide_true, Bool.or_true]
      · exact h.2 e he

/-! ### Lines -/

theorem lineBank_lt (line : Nat) : lineBank line < 16 := Nat.mod_lt _ (by decide)
theorem lineCol_lt (line : Nat) : lineCol line < 64 := by unfold lineCol; omega
theorem lineRow_lt {line : Nat} (h : line < 2 ^ 20) : lineRow line < 1024 := by unfold lineRow; omega

/-- A remapped row is one of the eight of the sorus. -/
theorem physRow_lt (s : State) (t bank row : Nat) (h : row < 1032) : physRow s t bank row < 1032 := by
  unfold physRow
  split
  · rename_i e _
    have h8 : (camEntry e.2).2.2.2 < 2 ^ (16 + 1 - 14) := fld_lt e.2 16 14
    omega
  · exact h

/-- Storing a line keeps the form. -/
theorem memory_wf_storeLine {s : State} {line : Nat} (l : Line) (epoch : Nat) (hl : line < 2 ^ 20) (h : Memory.wf s = true) :
    Memory.wf (storeLine s line l epoch) = true := by
  unfold storeLine
  generalize List.range 9 = ps
  induction ps generalizing s with
  | nil => exact h
  | cons p ps ih =>
    rw [List.foldl_cons]
    apply ih
    split
    · exact h
    · exact memory_wf_writeCell _ (lineBank_lt _) (physRow_lt _ _ _ _ (by have := lineRow_lt hl; omega)) (lineCol_lt _) h

theorem memory_wf_flipTier {s : State} {line : Nat} (t : Nat) (hl : line < 2 ^ 20) (h : Memory.wf s = true) :
    Memory.wf (flipTier s line t) = true := by
  unfold flipTier
  split
  · exact h
  · exact memory_wf_writeCell _ (lineBank_lt _) (physRow_lt _ _ _ _ (by have := lineRow_lt hl; omega)) (lineCol_lt _) h

theorem memory_wf_injectTier {s : State} {line : Nat} (hl : line < 2 ^ 20) (h : Memory.wf s = true) :
    Memory.wf (injectTier s line) = true := by
  unfold injectTier
  simp only []
  split
  · split
    · exact h
    · rw [memory_wf_thl (State.rgFld_thl _ _ _ _ _)]
      have h1 := memory_wf_flipTier (s.rf (rk 0x09 0x08C) 5 0) hl h
      split
      · split
        · split
          · exact memory_wf_flipTier _ hl h1
          · exact h1
        · exact h1
      · exact h1
  · exact h

/-- A write of a line keeps the form. -/
theorem memory_wf_writeLine {s : State} {line : Nat} (l : Line) (epoch : Nat) (hl : line < 2 ^ 20) (h : Memory.wf s = true) :
    Memory.wf (writeLine s line l epoch) = true := by
  unfold writeLine
  apply memory_wf_injectTier hl
  have hc : Memory.wf (clearFill (dropRepair (storeLine s line l epoch) line) line) = Memory.wf (storeLine s line l epoch) :=
    memory_wf_congr rfl rfl rfl
  rw [hc]
  exact memory_wf_storeLine l epoch hl h

/-! ### Tier loss, the initialization pass and resets -/

/-- Removing one tier's cells and making its base undefined keeps the form. -/
theorem memory_wf_lost {s b : State} {n : Nat} (hc : b.thl.cells = s.thl.cells.filter fun e => !(e.1 / (16 * 1032 * 64) == n))
    (hb : b.thl.base = setTen s.thl.base n 0) (hg : b.thl.gen = setTen s.thl.gen n (nth s.thl.gen n 0 + 1)) (h : Memory.wf s = true) :
    Memory.wf b = true := by
  rw [memory_wf_iff] at h ⊢
  rw [hc]
  refine ⟨smSorted_filter _ _ h.1, fun e he => ?_⟩
  obtain ⟨hm, hn⟩ := List.mem_filter.1 he
  have hn' : e.1 / (64 * 1032 * 16) ≠ n := by
    intro hh
    rw [show 16 * 1032 * 64 = 64 * 1032 * 16 from rfl] at hn
    simp [hh] at hn
  have hl := h.2 e hm
  unfold cellListed cellUndefined cellBase at hl ⊢
  have nb : nth b.thl.base (e.1 / (64 * 1032 * 16)) 0 = if e.1 / (64 * 1032 * 16) < 10 then nth s.thl.base (e.1 / (64 * 1032 * 16)) 0 else 0 := by
    rw [hb]
    unfold setTen
    by_cases h10 : e.1 / (64 * 1032 * 16) < 10
    · rw [if_pos h10]; simp [nth, h10, hn']
    · rw [if_neg h10]; simp [nth, h10]
  have ng : e.1 / (64 * 1032 * 16) < 10 → nth b.thl.gen (e.1 / (64 * 1032 * 16)) 0 = nth s.thl.gen (e.1 / (64 * 1032 * 16)) 0 := by
    intro h10
    rw [hg]
    unfold setTen
    simp [nth, h10, hn']
  by_cases h10 : e.1 / (64 * 1032 * 16) < 10
  · simp only [nb, if_pos h10, ng h10]; exact hl
  · simp [nb, if_neg h10]

theorem memory_wf_loseTier {s : State} (n : Nat) (h : Memory.wf s = true) : Memory.wf (loseTier s n) = true :=
  memory_wf_lost (n := n) rfl rfl rfl h

/-- Recording keeps the form. -/
theorem memory_wf_recorded {a b : State} (h : Recorded a b) : Memory.wf b = Memory.wf a := memory_wf_thl h.thl

/-- Memory right after reset has the form. -/
theorem memory_wf_reset : Memory.wf State.reset = true := by decide

/-- Any memory that lists nothing has the form: a cold reset's, and that of a fail-stop of class REFRESH. -/
theorem memory_wf_empty {s : State} (h : s.thl.cells = []) : Memory.wf s = true := by
  rw [memory_wf_iff, h]; exact ⟨rfl, fun _ he => by cases he⟩

theorem memory_wf_coldAssert (s : State) : Memory.wf (coldAssert s) = true := memory_wf_empty rfl

theorem memory_wf_warmState {s : State} (tr : Bool) (h : Memory.wf s = true) : Memory.wf (warmState s tr) = true := by
  have hc : Memory.wf (warmState s tr) = Memory.wf s := memory_wf_congr rfl rfl rfl
  rw [hc]; exact h

/-- Folding operations that keep the form. -/
theorem memory_wf_foldl {β : Type} (f : State → β → State) (l : List β) (hf : ∀ s x, x ∈ l → Memory.wf s = true → Memory.wf (f s x) = true)
    {s : State} (h : Memory.wf s = true) : Memory.wf (l.foldl f s) = true := by
  induction l generalizing s with
  | nil => exact h
  | cons x l ih => exact ih (fun s' y hy => hf s' y (List.mem_cons_of_mem _ hy)) (hf s x List.mem_cons_self h)

theorem memory_wf_zeroRow {s : State} (e : Nat × Word) (h : Memory.wf s = true) : Memory.wf (zeroRow s e) = true := by
  unfold zeroRow
  simp only []
  split
  · refine memory_wf_foldl _ _ (fun s' c hc hs => ?_) h
    have h8 : (camEntry e.2).2.2.2 < 2 ^ (16 + 1 - 14) := fld_lt e.2 16 14
    have h16 : (camEntry e.2).2.1 < 2 ^ (13 + 1 - 10) := fld_lt e.2 13 10
    exact memory_wf_writeCell _ h16 (by omega) (List.mem_range.1 hc) hs
  · exact h

theorem memory_wf_zeroData {s : State} (h : Memory.wf s = true) : Memory.wf (zeroData s) = true := by
  rw [memory_wf_iff] at h ⊢
  refine ⟨smSorted_filter _ _ h.1, fun e he => ?_⟩
  obtain ⟨-, hn⟩ := List.mem_filter.1 he
  simp only [Bool.and_eq_true, beq_iff_eq, show 16 * 1032 * 64 = 64 * 1032 * 16 from rfl] at hn
  unfold cellListed cellUndefined
  have : nth (zeroData s).thl.base (e.1 / (64 * 1032 * 16)) 0 = 0 := by
    rw [hn.2]; unfold zeroData; simp [nth, hn.1]
  simp only [this, beq_self_eq_true, Bool.true_or]

/-- The initialization pass keeps the form. -/
theorem memory_wf_zeroThallus {s : State} (h : Memory.wf s = true) : Memory.wf (zeroThallus s) = true :=
  memory_wf_foldl _ _ (fun _ e _ hs => memory_wf_zeroRow e hs) (memory_wf_zeroData h)

theorem failRegs_thl (s : State) (cls page b info : Nat) : (failRegs s cls page b info).thl = s.thl := by
  unfold failRegs; simp only [State.rgSet_thl]
theorem failUnits_cells (s : State) : (failUnits s).thl.cells = s.thl.cells := rfl
theorem failUnits_base (s : State) : (failUnits s).thl.base = s.thl.base := rfl
theorem failUnits_gen (s : State) : (failUnits s).thl.gen = s.thl.gen := rfl

theorem memory_wf_failStop {s : State} (cls page b info : Nat) (h : Memory.wf s = true) : Memory.wf (failStop s cls page b info) = true := by
  unfold failStop
  split
  · exact h
  · rw [memory_wf_recorded (steady_logErr _ _ _ _), memory_wf_thl (sendSnet_thl _ _ _ _),
      memory_wf_congr (failUnits_cells _) (failUnits_base _) (failUnits_gen _), memory_wf_thl (failRegs_thl _ _ _ _ _)]
    exact h

theorem memory_wf_checkDoubleLoss {s : State} (t : Nat) (h : Memory.wf s = true) : Memory.wf (checkDoubleLoss s t) = true := by
  unfold checkDoubleLoss
  split
  · exact memory_wf_failStop _ _ _ _ (by rw [memory_wf_recorded (steady_logErr _ _ _ _)]; exact h)
  · exact h

theorem memory_wf_markFailed {s : State} (t : Nat) (h : Memory.wf s = true) : Memory.wf (markFailed s t) = true :=
  memory_wf_lost (s := s) (n := t) rfl rfl rfl h

theorem noteFailed_thl (s : State) (t cause : Nat) : (noteFailed s t cause).thl = s.thl := State.rgSet_thl _ _ _

theorem memory_wf_rebuildIdle {s : State} (h : Memory.wf s = true) : Memory.wf (rebuildIdle s) = true := by
  unfold rebuildIdle
  rw [memory_wf_recorded (steady_logErr _ _ _ _)]
  exact (memory_wf_congr (a := s) rfl rfl rfl).trans h

/-- Declaring a tier keeps the form: the tier's cells go, and what follows are records, a rebuild's end and fail-stop. -/
theorem memory_wf_declareTier {s : State} (t cause : Nat) (h : Memory.wf s = true) : Memory.wf (declareTier s t cause) = true := by
  have hn : Memory.wf (noteFailed s t cause) = true := by rw [memory_wf_thl (noteFailed_thl _ _ _)]; exact h
  have hl : Memory.wf (logErr (markFailed (noteFailed s t cause) t) 0x03 2 (mkFld 3 0 t + mkFld 5 4 cause)) = true := by
    rw [memory_wf_recorded (steady_logErr _ _ _ _)]; exact memory_wf_markFailed t hn
  unfold declareTier
  simp only []
  split
  · exact h
  · apply memory_wf_checkDoubleLoss
    split
    · exact memory_wf_rebuildIdle hl
    · exact hl

end Sys2Proof.Machine
end

