-- ==== Sys2Proof/Tests/Slice0.lean ====
section
/-!
SUPPORT. Tests. First ill-formed commands, which the check refuses; then the spec's worked examples, each with its source; then one step of a
few commands; then witnesses: a state and operands that meet the hypotheses of each statement, one theorem for each or for each group of its
clauses.
-/

namespace Sys2Proof.Tests

set_option Elab.async false

open Sys2Proof Sys2Proof.Machine

/-! ### Fixtures -/

/-- A slice at work: LOGIC, ENG and SMC on, every tier awake, the initializations done, and no frame timing yet. -/
def up : State :=
  let r := State.reset
  { r with
    fab := { r.fab with credOwed := [0, 0, 0, 0, 0], credHeld := [16, 8, 8, 16, 2], footing := false }
    thl := { r.thl with initDue := false }
    frm := { r.frm with frame0 := none }
    acc := { r.acc with initAt := none, ready := true }
    cch := { r.cch with initAt := none, ready := true }
    dir := { r.dir with initAt := none, ready := true }
    pwr := { r.pwr with tiers := List.replicate 10 (TierSt.rest .awake false), queue := [] } }

/-- `s` with words in registers. -/
def regs (s : State) (ws : List (Nat × Word)) : State := ws.foldl (fun s e => s.rgSet e.1 e.2) s

/-- Regions 0 to 2 of sixteen granules each: UNCACHED, COHERENT, and STREAM-only of FMT 0; host agent 2. -/
def open_ : State := regs up
  [(rk 0x02 0x300, 0x800F0000#32), (rk 0x02 0x304, 0x000FFF04#32), (rk 0x02 0x308, 0x801F0010#32), (rk 0x02 0x30C, 0x000FFF02#32),
   (rk 0x02 0x310, 0x802F0020#32), (rk 0x02 0x314, 0x000FFF00#32), (rk 0x04 0x05C, 0x80000002#32)]

/-- `open_` in debug mode. -/
def dbg : State := regs up [(rk 0x10 0x040, 1#32)]

/-- A request of ring 0 with S = 1 and TXN 5 to the slice. -/
def req (vc srcType size kind addr param : Nat) (payload : List CData) : CPacket :=
  mkPacket vc (mkHead 0 0 (mkFld 2 2 1 + mkFld 6 5 kind + mkFld 9 7 size) 5 (srcType, 0, 0) (1, 0, 0) addr param) payload

/-- A register access of the SMC on MGMT, with a word to write. -/
def reg (d : Nat) : CPacket := req 4 3 2 1 (2 * 2 ^ 52) d []

/-- The same with S = 0. -/
def regNs (d : Nat) : CPacket := let p := reg d; p.withHead (setFld p.head 14 14 0)

/-- A payload of `n` flits. -/
def data (n : Nat) : List CData := List.replicate n ⟨7, false⟩

/-- A request of core 0 for a pinned address. -/
def core (size addr param n : Nat) : CPacket := req 0 0 size 1 addr param (data n)

/-! ### Ill-formed commands -/

theorem test_wf_ports : (Instr.cnetCreditRx 0 5).wf .L = false ∧ (Instr.cnetCreditRx 0 4).wf .L = true ∧ (Instr.intRetry 0 18).wf .L = false ∧
    (Instr.bLate 0 1024 0).wf .L = false ∧ (Instr.bLate 0 1023 0).wf .L = true := by decide

theorem test_wf_registers : (Instr.errMaskWrite 0 (reg 0) 18).wf .L = false ∧ (Instr.wideLowRead 0 (reg 0) 9).wf .L = false ∧
    (Instr.rgnShadowWrite 0 (reg 0) 128).wf .L = false ∧ (Instr.optSlotWrite 0 (reg 0) 144).wf .L = false ∧
    (Instr.sprShadowWrite 0 (reg 0) 73).wf .L = false ∧ (Instr.pmuCntWrite 0 (reg 0) 16).wf .L = false ∧
    (Instr.pmuCfgWrite 0 (reg 0) 8).wf .L = false ∧ (Instr.evtSelWrite 0 (reg 0) 16).wf .L = false ∧ (Instr.cntOvf 0 8).wf .L = false := by decide

theorem test_wf_domains : (Instr.domCfgWrite 0 (reg 0) 38).wf .L = false ∧ (Instr.domCfgWrite 0 (reg 0) 37).wf .L = true ∧
    (Instr.domCfgWrite 0 (reg 0) 30).wf .S = false ∧ (Instr.leakTick 0 38).wf .L = false ∧ (Instr.leakTick 0 30).wf .S = false := by decide

theorem test_wf_entries : (Instr.egress 0 1024).wf .L = false ∧ (Instr.ingressStore 0 1024).wf .L = false ∧ (Instr.ingressAcc 0 1024).wf .L = false ∧
    (Instr.openGroup 0 1024).wf .L = false ∧ (Instr.discard 0 1024).wf .L = false ∧ (Instr.storeRound 0 1024).wf .L = false ∧
    (Instr.storeStats 0 1024).wf .L = false ∧ (Instr.closeForward 0 1024).wf .L = false ∧ (Instr.applyUpdate 0 1024).wf .L = false ∧
    (Instr.forwardSend 0 1024).wf .L = false ∧ (Instr.forwardReceive 0 1024).wf .L = false ∧ (Instr.wakeTier 0 1024).wf .L = false ∧
    (Instr.sleepTier 0 1024).wf .L = false ∧ (Instr.barrier 0 1024).wf .L = false ∧ (Instr.barTimeout 0 1024).wf .L = false ∧
    (Instr.fence 0 1024).wf .L = false ∧ (Instr.fence 0 1023).wf .L = true := by decide

theorem test_wf_slots : (Instr.waitTmo 0 64).wf .L = false ∧ (Instr.stall 0 64).wf .L = false ∧ (Instr.allocWaitRetry 0 64).wf .L = false ∧
    (Instr.blockedStart 0 64).wf .L = false ∧ (Instr.blockTmo 0 64).wf .L = false ∧ (Instr.fwdTmo 0 640).wf .L = false ∧
    (Instr.fillTmo 0 512 0).wf .L = false ∧ (Instr.fillTmo 0 0 12).wf .L = false ∧ (Instr.fillTmo 0 511 11).wf .L = true ∧
    (Instr.wbStall 0 8).wf .L = false ∧ (Instr.pullPacketSend 0 8).wf .L = false ∧ (Instr.grantTmo 0 10).wf .L = false ∧
    (Instr.atomicExec 0 16).wf .L = false ∧ (Instr.atomicExec 0 8).wf .S = false ∧ (Instr.bucketSteal 0 16).wf .L = false := by decide

theorem test_wf_tiers : (Instr.tierWakeDone 0 10).wf .L = false ∧ (Instr.wakeTmo 0 10).wf .L = false ∧ (Instr.tierSleepDone 0 10).wf .L = false ∧
    (Instr.torifRetire 0 (.row 10)).wf .L = false ∧ (Instr.torifRetire 0 (.tier 10)).wf .L = false ∧
    (Instr.torifRetire 0 (.rebuild 9)).wf .L = false ∧ (Instr.torifRetire 0 (.engine 18)).wf .L = false := by decide

/-! ### Worked examples of the spec -/

/-- 00, finding the decode page of slice 17 on chip 3. -/
theorem test_register_address : 2 * 2 ^ 52 + 3 * 2 ^ 37 + 17 * 2 ^ 29 + (0x08 * 4096 + 0) = 0x20006220008000 ∧
    viewWord { State.reset with straps := { Straps.model with chip := 3, tile := 17 } } 0x08 0x000 = 0xA5080200#32 ∧
    viewWord State.reset 0x08 0x004 = 0x00300090#32 := by decide

/-- 02, a 64-bit compare-and-swap: the header of the request, and of the answer. -/
def casHead : BitVec 256 := 0x0000000000000000#64 ++ 0x0000000000000062#64 ++ 0x2012344000003411#64 ++ 0x000030255C1B1011#64

theorem test_header_fields : hOpcode casHead = 0x11 ∧ hRing casHead = 1 ∧ hS casHead = false ∧ hSpec casHead = false ∧ hCls casHead = 1 ∧
    hKind casHead = 1 ∧ hSize casHead = 3 ∧ hTxn casHead = 0x5C ∧ hSrc casHead = (0, 37, 3) ∧ hDst casHead = (1, 17, 3) ∧
    hAddr casHead = 0x6220123440 ∧ hSpace casHead = 0 ∧ hOffset casHead = 0x123440 := by decide

theorem test_answer_header : (respHead { State.reset with straps := { Straps.model with chip := 3, tile := 17 } } casHead 0x51 0 0).extractLsb' 0 128 =
    0x2012344000003025#64 ++ 0x000034115C1B1051#64 := by decide

/-- 02, the same request with SPEC = 1 is refused at stage 7. -/
theorem test_spec_refused : stage7Bits casHead = [] ∧ stage7Bits (setFld casHead 15 15 1) = [15] := by decide

/-- 02, encoding a tick. -/
theorem test_tick_beats : snetBeats 1 0x1234 = (0x8802#16, 0x2347#16) := by decide

/-- 03, homing a host line: with 256 good slices, and with six fused off. -/
theorem test_cached_home : cachedHome (List.range 256) (2 ^ 52 + 0x8012345680) = some 104 ∧
    cachedHome ((List.range 256).filter fun t => !([3, 40, 77, 104, 150, 201].contains t)) (2 ^ 52 + 0x8012345680) = some 106 := by decide +kernel

/-- 04, the line of the compare-and-swap. -/
theorem test_line_place : 0x123440 / 128 = 0x2468 ∧ bankGroup (lineBank 0x2468) = 3 ∧ lineBank 0x2468 = 3 ∧ lineCol 0x2468 = 8 ∧
    lineRow 0x2468 = 9 ∧ lineOfLap (lapOf 0x2468) = 0x2468 := by decide

/-- 10, a steal: the bucket of the compare-and-swap and its owner at reset. -/
theorem test_bucket : bucketOf 0x2468 = 59 ∧ bucketOwner State.reset 59 = 11 ∧ bucketOwner State.reset 43 = 11 := by decide

/-- The stream of 07, an MXFP4 line: bytes 0x7E, 0x72, 0xF9, 0x08. -/
def mxLine : Nat → Line := fun _ => ⟨0x08F9727E#1024, false, false⟩

theorem test_mxfp4_elements : (List.range 6).map (fun i => (fpBf16.convert false (stElem 0x0A 64 mxLine i).val).raw) =
    [0x3F00, 0x4040, 0xBE80, 0xC040, 0x8000, 0x0000] := by decide +kernel

/-- 07: elements 0 and 1 under a scale of 2^7 with OUT_FMT 3, saturating or not. -/
theorem test_e4m3_overflow : (fpE4m3.convert true ((fpE2m1.decode 2).mul (e8m0 0x86))).raw = 0x70 ∧
    (fpE4m3.convert true ((fpE2m1.decode 7).mul (e8m0 0x86))).raw = 0x7E ∧
    (fpE4m3.convert false ((fpE2m1.decode 7).mul (e8m0 0x86))).raw = 0x7F := by decide

/-- The block of 07, an EPC block: CTL 0x03, BASE 0x7C, the sign-mantissa bytes, and bytes 66 and 67 of the exponent plane. -/
def epcLine : Nat → Line := fun _ => ⟨BitVec.ofNat 1024 (0x2A00C0007C03 + 0x1D1 * 2 ^ (8 * 66)), false, false⟩

theorem test_epc_elements : (match epcParse 0x0E epcLine 1 (fun _ => true) 0 with
    | .ok b => (b.k, b.base, b.next, (List.range 4).map (epcRaw 0x0E epcLine b))
    | .error _ => (0, 0, 0, [])) = (3, 124, 90, [0x3E80, 0xBF40, 0x0000, 0x3E2A]) := by decide +kernel

theorem test_epc_rounded : [0x3E80, 0xBF40, 0x0000, 0x3E2A].map (fun r => (fpE4m3.convert true (fpBf16.decode r)).raw) =
    [0x28, 0xB4, 0x00, 0x23] := by decide

/-- 08, a shift that depends on order: WLSB = -40, order A. -/
def laneRun (xs : List Nat) : Lane := xs.foldl (fun x r => (laneAdd x (elemAddend fpF32 r false false) (-40)).1) (laneOf 0)

theorem test_lane_order_a : (laneRun [0x2F000000, 0x2F000000, 0x5AC00000, 0x5AC00000]).v = 0x00C000000000000000000001 ∧
    (laneRun [0x2F000000, 0x2F000000, 0x5AC00000, 0x5AC00000]).sh = 1 ∧
    (laneRun [0x2F000000, 0x2F000000, 0x5AC00000, 0x5AC00000]).sticky = false := by decide

theorem test_lane_order_b : (laneRun [0x5AC00000, 0x5AC00000, 0x2F000000, 0x2F000000]).v = 0x00C000000000000000000000 ∧
    (laneRun [0x5AC00000, 0x5AC00000, 0x2F000000, 0x2F000000]).sticky = true := by decide

/-- 08: both orders close to the same FP32. -/
theorem test_lane_close : closeConvert 0x03 true false (closeVal (laneRun [0x2F000000, 0x2F000000, 0x5AC00000, 0x5AC00000]) (-40)) = 0x5B400000 ∧
    closeConvert 0x03 true false (closeVal (laneRun [0x5AC00000, 0x5AC00000, 0x2F000000, 0x2F000000]) (-40)) = 0x5B400000 := by decide

/-- 08, closing an MXFP4 block. -/
theorem test_mxfp4_block : (mxBlock 0x0A false ([Val.ofInt 1 (-1), Val.ofInt 3 0, Val.ofInt (-1) (-2), Val.ofInt (-3) 0, Val.ofInt 7 0] ++
    List.replicate 27 Val.zero)).take 4 = [0x7F, 0x51, 0xD8, 0x07] := by decide

/-- 19, probing an S-build slice. -/
theorem test_probe_s : viewWord { State.reset with straps := { Straps.model with build := .S } } 0x06 0x004 = 0x003105E4#32 ∧
    viewWord { State.reset with straps := { Straps.model with build := .S } } 0x06 0x05C = 0x00018820#32 ∧
    viewWord { State.reset with straps := { Straps.model with build := .S } } 0x07 0x104 = 0#32 ∧
    viewWord { State.reset with straps := { Straps.model with build := .S } } 0x09 0x1F0 = 0#32 ∧
    viewWord State.reset 0x09 0x1F0 = 0x00100040#32 ∧ viewWord State.reset 0x06 0x05C = 0x0A418820#32 := by decide

/-! ### Witnesses: the machine, stored lines -/

theorem witness_idle_step : State.reset.pending = [] ∧ up.pending = [] := by decide

theorem witness_safe : Safe { up with pending := [.nop 3 (reg 0), .cntOvf 5 7] } :=
  ⟨⟨by decide, by decide, by decide⟩, by unfold Runnable; decide⟩

theorem witness_missing_objects : (Instr.cntOvf 0 8).wf up.straps.build = false ∧ (Instr.cntOvf 0 7).wf up.straps.build = true := by decide

theorem witness_cells : cellExists 0 0 0 0 ∧ cellExists 9 15 1031 63 ∧ ((9, 15, 1031, 63) : Nat × Nat × Nat × Nat) ≠ (0, 0, 0, 0) ∧
    Memory.wf up = true := by unfold cellExists; decide

theorem witness_stored_lines : (∀ p, p < 9 → tierFailed up p = false) ∧ (∀ p, p < 9 → fillPending up p (2 ^ 20 - 1) = false) := by decide

/-! ### Witnesses: register writes of pages FRM and RGN -/

/-- A write of `d` to a register, one with action bits, and a read. -/
def wr (page ofs d : Nat) : CPacket := writeOf (reg d) page ofs
@[inherit_doc wr] def act (page ofs : Nat) (on off : List Nat) (d : Nat) : CPacket := actOf (reg d) page ofs on off
@[inherit_doc wr] def rd (page ofs : Nat) : CPacket := readOf (reg 0) page ofs

/-- The slice at stage 12 of a request of sclk 0. -/
def at12 (s : State) (q : CPacket) : State := atStage12 s 0 q

theorem witness_frame_parameters : ∀ r ∈ [(0x048, 3200, 16), (0x048, 1600, 16), (0x048, 102400, 16), (0x050, 8, 5), (0x050, 56, 5), (0x054, 1, 9), (0x054, 512, 9)],
    accepted up 0 (wr 0x01 r.1 r.2.1) = true ∧ fld (hData (reg r.2.1).head) r.2.2 0 = r.2.1 ∧
    reserveReg (at12 up (wr 0x01 r.1 r.2.1)) ≤ 1600 ∧ (at12 up (wr 0x01 r.1 r.2.1)).frm.state = .idle ∧
    (at12 up (wr 0x01 r.1 r.2.1)).frm.inact ≠ .validating := by decide +kernel

/-- The engine runs. -/
def running : State := { up with frm := { up.frm with state := .running } }

theorem witness_parameters_busy : accepted running 0 (wr 0x01 0x048 1600) = true ∧ (at12 running (wr 0x01 0x048 1600)).frm.state = .running ∧
    (at12 running (wr 0x01 0x048 1600)).rf (rk 0x01 0x048) 16 0 = 3200 ∧ accepted running 0 (wr 0x01 0x048 3200) = true := by decide +kernel

theorem witness_refresh_reserve : accepted up 0 (wr 0x01 0x04C 3072) = true ∧ fld (hData (reg 3072).head) 15 0 = 3072 ∧ 3072 % 192 = 0 ∧
    3072 ≤ period (at12 up (wr 0x01 0x04C 3072)) ∧ (at12 up (wr 0x01 0x04C 3072)).frm.inact ≠ .validating := by decide +kernel

/-- `up` with the other half of frame memory in a state. -/
def half (x : HalfSt) : State := { up with frm := { up.frm with inact := x } }

theorem witness_load_commands : accepted up 0 (act 0x01 0x058 [0] [1, 2] 0) = true ∧
    (at12 up (act 0x01 0x058 [0] [1, 2] 0)).frm.inact ≠ .validating ∧ accepted (half .opened) 0 (act 0x01 0x058 [1] [0, 2] 0) = true ∧
    (at12 (half .opened) (act 0x01 0x058 [1] [0, 2] 0)).frm.inact = .opened ∧ accepted up 0 (act 0x01 0x058 [1] [0, 2] 0) = true ∧
    accepted (half .validating) 0 (act 0x01 0x058 [2] [] 3) = true ∧ (at12 (half .validating) (act 0x01 0x058 [2] [] 3)).frm.inact = .validating := by decide +kernel

/-- The half is open and LOAD_PTR is at its last word. -/
def loading : State := (half .opened).rgSet (rk 0x01 0x05C) 8191#32

theorem witness_load_data : accepted loading 0 (wr 0x01 0x060 9) = true ∧ (at12 loading (wr 0x01 0x060 9)).frm.inact = .opened ∧
    (at12 loading (wr 0x01 0x060 9)).rf (rk 0x01 0x05C) 13 0 = 8191 ∧ accepted loading 0 (rd 0x01 0x060) = true ∧
    accepted (loading.rgSet (rk 0x01 0x05C) 8192#32) 0 (rd 0x01 0x060) = true ∧ (∀ x ∈ (at12 loading (rd 0x01 0x060)).ras.upsets, x.1 ≠ 16) := by decide +kernel

/-- A region table commit is pending. -/
def rgnPending : State := { up with rgn := { up.rgn with pending := true } }

theorem witness_region_commits : accepted up 0 (act 0x02 0x040 [0] [1, 2] 0) = true ∧ accepted rgnPending 0 (act 0x02 0x040 [2] [] 0) = true ∧
    accepted rgnPending 0 (act 0x02 0x040 [1] [0, 2] 0) = true ∧ (at12 rgnPending (act 0x02 0x040 [1] [0, 2] 0)).rgn.pending = true ∧
    accepted up 0 (act 0x02 0x040 [1] [0, 2] 0) = true ∧
    ((at12 up (act 0x02 0x040 [1] [0, 2] 0)).rgn.pending || anyHeld (at12 up (act 0x02 0x040 [1] [0, 2] 0))) = false ∧
    freeSlot (at12 up (act 0x02 0x040 [1] [0, 2] 0)) = some 0 := by decide +kernel

theorem witness_region_shadow : accepted up 0 (wr 0x02 (0x100 + 4 * 127) 8) = true ∧ hS (reg 8).head = true ∧
    accepted up 0 (writeOf (regNs 8) 0x02 0x104) = true ∧ hS (regNs 8).head = false ∧
    accepted rgnPending 0 (wr 0x02 0x100 0) = true ∧ (at12 rgnPending (wr 0x02 0x100 0)).rgn.pending = true := by decide +kernel

/-! ### Witnesses: register writes of the other block pages -/

/-- Position 1 of the shadow map names engine 0 again; and a map commit waits. -/
def badMap : State := regs up [(rk 0x06 0x050, 0x00008800#32)]
@[inherit_doc badMap] def mapWaits : State := { up with upd := { up.upd with mapAt := some 0 } }

theorem witness_map_commits : accepted up 0 (act 0x06 0x04C [0] [1, 2] 0) = true ∧ (at12 up (act 0x06 0x04C [0] [1, 2] 0)).upd.mapAt = none ∧
    mapFault (at12 up (act 0x06 0x04C [0] [1, 2] 0)) = none ∧ accepted badMap 0 (act 0x06 0x04C [0] [1, 2] 0) = true ∧
    mapFault (at12 badMap (act 0x06 0x04C [0] [1, 2] 0)) = some (1, 0) ∧ accepted mapWaits 0 (act 0x06 0x04C [0] [1, 2] 0) = true ∧
    (at12 mapWaits (act 0x06 0x04C [0] [1, 2] 0)).upd.mapAt ≠ none ∧ accepted mapWaits 0 (act 0x06 0x04C [2] [] 0) = true := by decide +kernel

theorem witness_map_now : accepted up 0 (act 0x06 0x04C [1] [0, 2] 0) = true ∧ (at12 up (act 0x06 0x04C [1] [0, 2] 0)).frm.state = .idle ∧
    (at12 up (act 0x06 0x04C [1] [0, 2] 0)).acc.groups = [] ∧ freeSlot (at12 up (act 0x06 0x04C [1] [0, 2] 0)) = some 0 := by decide +kernel

/-- A sparing commit is pending. -/
def sprPending : State := { up with spr := { up.spr with pending := true } }

theorem witness_sparing_commits : accepted up 0 (act 0x0A 0x044 [0] [1, 2] 0) = true ∧ accepted sprPending 0 (act 0x0A 0x044 [2] [] 0) = true ∧
    accepted sprPending 0 (act 0x0A 0x044 [1] [0, 2] 0) = true ∧ (at12 sprPending (act 0x0A 0x044 [1] [0, 2] 0)).spr.pending = true ∧
    accepted up 0 (act 0x0A 0x044 [1] [0, 2] 0) = true ∧ (at12 up (act 0x0A 0x044 [1] [0, 2] 0)).frm.state = .idle ∧
    (at12 up (act 0x0A 0x044 [1] [0, 2] 0)).spr.pending = false ∧ freeSlot (at12 up (act 0x0A 0x044 [1] [0, 2] 0)) = some 0 := by decide +kernel

theorem witness_sparing_shadow : (∀ n ∈ [0, 63, 64, 71], accepted up 0 (wr 0x0A (sprWordOfs n) 0x80000001) = true) ∧
    accepted up 0 (wr 0x0A (sprWordOfs 72) 9) = true ∧ fld (hData (reg 9).head) 3 0 = 9 ∧ accepted sprPending 0 (wr 0x0A (sprWordOfs 5) 0) = true := by decide +kernel

/-- T3 has failed; a rebuild of position 3 runs, and another is paused. -/
def t3Lost : State := regs up [(rk 0x03 0x048, 8#32)]
@[inherit_doc t3Lost] def rebuilding (x : RebuildSt) : State := { t3Lost with spr := { t3Lost.spr with rebuild := x, pos := 3 } }

theorem witness_rebuild : accepted t3Lost 0 (act 0x0A 0x054 [0] [1, 2, 3] 0x30) = true ∧ fld (hData (act 0x0A 0x054 [0] [1, 2, 3] 0x30).head) 7 4 = 3 ∧
    rebuildMay (at12 t3Lost (act 0x0A 0x054 [0] [1, 2, 3] 0x30)) 3 = true ∧ accepted t3Lost 0 (act 0x0A 0x054 [0] [1, 2, 3] 0x80) = true ∧
    rebuildMay (at12 t3Lost (act 0x0A 0x054 [0] [1, 2, 3] 0x80)) 8 = false ∧
    accepted (rebuilding .running) 0 (act 0x0A 0x054 [1] [0, 2, 3] 0x30) = true ∧ accepted (rebuilding .paused) 0 (act 0x0A 0x054 [2] [0, 1, 3] 0x30) = true ∧
    accepted (rebuilding .running) 0 (act 0x0A 0x054 [3] [] 0x30) = true ∧
    (at12 (rebuilding .running) (act 0x0A 0x054 [3] [] 0x30)).spr.rebuild = .running := by decide +kernel

theorem witness_counter_clears : accepted up 0 (act 0x04 0x040 [0] [] 0) = true ∧ accepted up 0 (act 0x05 0x040 [0] [] 0) = true ∧
    accepted up 0 (act 0x0E 0x040 [0] [] 0) = true ∧ accepted up 0 (act 0x0E 0x048 [0] [] 0) = true := by decide +kernel

theorem witness_saturation : accepted up 0 (wr 0x07 0x040 3) = true ∧ accepted up 0 (act 0x07 0x040 [2] [] 1) = true ∧
    accepted up 0 (wr 0x08 0x040 2) = true ∧ accepted up 0 (act 0x08 0x040 [2] [] 1) = true ∧ accepted running 0 (wr 0x08 0x040 2) = true ∧
    (at12 running (wr 0x08 0x040 2)).frm.state = .running := by decide +kernel

theorem witness_update_counters : accepted up 0 (act 0x06 0x040 [1] [] 0x20) = true ∧ fld (hData (reg 0x20).head) 5 2 = 8 ∧
    accepted up 0 (act 0x06 0x040 [1] [] 4) = true ∧ (∀ n ∈ [0, 8, 9, 143], accepted up 0 (wr 0x06 (slotWordOfs n) 7) = true) ∧
    accepted running 0 (wr 0x06 (slotWordOfs 143) 7) = true := by decide +kernel

/-- An error of page FRM waits, masked, with interrupts to core 0 enabled. -/
def masked : State := regs up [(rk 0x01 0x010, 2#32), (rk 0x01 0x008, 1#32), (rk 0x01 0x01C, 1#32)]

theorem witness_error_mask : (∀ n ∈ [0x00, 0x01, 0x0C, 0x0D, 0x11], accepted up 0 (wr n 0x014 5) = true) ∧ accepted masked 0 (wr 0x01 0x014 0) = true ∧
    errPending (at12 masked (wr 0x01 0x014 0)) 1 = false ∧ (at12 masked (wr 0x01 0x014 0)).rb (rk 0x01 0x008) 0 = true ∧
    fld ((at12 masked (wr 0x01 0x014 0)).rg (rk 0x01 0x01C)) 1 0 = 1 := by decide +kernel

theorem witness_abi_level : accepted up 0 (wr 0x00 0x048 1) = true ∧ accepted up 0 (wr 0x00 0x048 2) = true ∧ level (at12 up (wr 0x00 0x048 2)) = 2 ∧
    accepted running 0 (wr 0x00 0x048 1) = true ∧ (at12 running (wr 0x00 0x048 1)).frm.state = .running := by decide +kernel

/-- A fill waits for the host. -/
def filling : State := { open_ with cch := { open_.cch with fills := [⟨5, 3, false, some 8, 0⟩] } }

theorem witness_host_agent : accepted filling 0 (wr 0x04 0x05C 0x80000002) = true ∧ accepted filling 0 (wr 0x04 0x05C 3) = true ∧
    (at12 filling (wr 0x04 0x05C 3)).cch.fills ≠ [] ∧ accepted up 0 (wr 0x04 0x05C 0x80000002) = true := by decide +kernel

theorem witness_retired_ways : accepted up 0 (wr 0x05 0x054 5) = true ∧ (at12 up (wr 0x05 0x054 5)).dir.ents = [] ∧
    (at12 up (wr 0x05 0x054 5)).dir.txns = [] ∧ accepted up 0 (wr 0x05 0x054 0x3F) = true ∧ 5 < popCount 9 0x3F ∧ popCount 9 5 ≤ 5 ∧
    failed (sweepStep (let a := at12 up (wr 0x05 0x054 5); { a.rgFld (rk 0x05 0x054) 8 0 5 with dir := { a.dir with sweep := 5 } })) = false := by
  decide +kernel

theorem witness_declared_tiers :
    (let q := wr 0x03 0x048 0x200
     accepted up 0 q = true ∧ declares (at12 up q) (hData q.head) 9 = true ∧ 9 < (at12 up q).pwr.tiers.length ∧
       (lacking (afterDeclared (at12 up q) (hData q.head))).length < 2) ∧
    (let q := wr 0x03 0x048 3
     accepted up 0 q = true ∧ declares (at12 up q) (hData q.head) 1 = true ∧ 2 ≤ (lacking (afterDeclared (at12 up q) (hData q.head))).length) ∧
    (let q := wr 0x03 0x048 8
     accepted t3Lost 0 q = true ∧ ∀ n ∈ List.range 32, declares (at12 t3Lost q) (hData q.head) n = false) := by decide +kernel

theorem witness_ras_controls : accepted up 0 (act 0x09 0x070 [1] [] 1) = true ∧ accepted up 0 (act 0x09 0x074 [1] [] 0x401) = true ∧
    fld (hData (act 0x09 0x074 [1] [] 0x401).head) 11 4 ≠ 0 ∧ accepted up 0 (wr 0x09 0x100 0x180040) = true ∧
    accepted up 0 (wr 0x09 (0x100 + 8 * 37) 0x180040) = true ∧ fld (hData (reg 0x180040).head) 20 16 = 24 ∧
    accepted up 0 (act 0x09 0x040 [1] [] 0) = true ∧ accepted up 0 (act 0x09 0x040 [0] [] 0) = true := by decide +kernel

theorem witness_fail_stop_and_injections : accepted up 0 (act 0x09 0x050 [0] [] 0) = true ∧ hS (act 0x09 0x050 [0] [] 0).head = true ∧
    failed (at12 up (act 0x09 0x050 [0] [] 0)) = false ∧ accepted up 0 (actOf (regNs 0) 0x09 0x050 [0] []) = true ∧
    hS (actOf (regNs 0) 0x09 0x050 [0] []).head = false ∧ accepted dbg 0 (act 0x09 0x08C [7] [] 37) = true ∧
    debugMode (at12 dbg (act 0x09 0x08C [7] [] 37)) = true ∧ fld (hData (act 0x09 0x08C [7] [] 37).head) 5 0 = 37 ∧
    accepted up 0 (act 0x09 0x08C [7] [] 12) = true := by decide +kernel

/-! ### Witnesses: power, resets, counters and debug -/

/-- ENG or SMC is off; ENG is on its way up; a group-opening program is held is not needed for the refusals by state. -/
def engOff : State := { up.rgFld (rk 0x0B 0x040) 0 0 0 with pwr := { up.pwr with eng := .off } }
@[inherit_doc engOff] def smcOff : State := { up.rgFld (rk 0x0B 0x040) 1 1 0 with pwr := { up.pwr with smc := .off } }
@[inherit_doc engOff] def engRising : State := { up with pwr := { up.pwr with eng := .rising 90 } }

theorem witness_domains : accepted up 0 (act 0x0B 0x040 [] [0] 2) = true ∧ (at12 up (act 0x0B 0x040 [] [0] 2)).rb (rk 0x0B 0x040) 1 = true ∧
    (at12 up (act 0x0B 0x040 [] [0] 2)).rb (rk 0x0B 0x040) 0 = true ∧ (at12 up (act 0x0B 0x040 [] [0] 2)).pwr.eng = .on ∧
    accepted engOff 0 (act 0x0B 0x040 [0] [] 2) = true ∧ (at12 engOff (act 0x0B 0x040 [0] [] 2)).rb (rk 0x0B 0x040) 0 = false ∧
    (at12 engOff (act 0x0B 0x040 [0] [] 2)).pwr.eng = .off ∧ accepted up 0 (act 0x0B 0x040 [] [1] 1) = true ∧
    (at12 up (act 0x0B 0x040 [] [1] 1)).pwr.smc = .on ∧ accepted smcOff 0 (act 0x0B 0x040 [1] [] 1) = true ∧
    (at12 smcOff (act 0x0B 0x040 [1] [] 1)).rb (rk 0x0B 0x040) 1 = false ∧ (at12 smcOff (act 0x0B 0x040 [1] [] 1)).pwr.smc = .off ∧
    accepted engRising 0 (act 0x0B 0x040 [] [0] 2) = true ∧ switching (at12 engRising (act 0x0B 0x040 [] [0] 2)).pwr.eng = true := by decide +kernel

/-- T9 sleeps; the plan of the active program names T4. -/
def t9Asleep : State := { up with pwr := { up.pwr with tiers := List.replicate 9 (TierSt.rest .awake false) ++ [TierSt.rest .sleep false] } }
@[inherit_doc t9Asleep] def planned : State := regs up [(rk 0x01 0x084, 0x10#32)]

theorem witness_tier_commands : fld (hData (reg 0x200).head) 9 0 = 2 ^ 9 ∧ accepted t9Asleep 0 (act 0x0B 0x048 [12] [13] 0x200) = true ∧
    (tier (at12 t9Asleep (act 0x0B 0x048 [12] [13] 0x200)) 9).st = .sleep ∧ accepted up 0 (act 0x0B 0x048 [13] [12] 0x10) = true ∧
    fld (hData (reg 0x10).head) 9 0 = 2 ^ 4 ∧ (tier (at12 up (act 0x0B 0x048 [13] [12] 0x10)) 4).st = .awake ∧
    accepted planned 0 (act 0x0B 0x048 [13] [12] 0x10) = true ∧ (planActive (at12 planned (act 0x0B 0x048 [13] [12] 0x10))).testBit 4 = true ∧
    accepted up 0 (act 0x0B 0x048 [12, 13] [] 0x200) = true ∧ (at12 up (act 0x0B 0x048 [12, 13] [] 0x200)).pwr.tiers.length = 10 := by decide +kernel

theorem witness_retention_and_resets : accepted up 0 (act 0x0B 0x068 [0] [1] 0) = true ∧ hS (reg 0).head = true ∧
    retainCheck (at12 up (act 0x0B 0x068 [0] [1] 0)) 0 = none ∧ accepted sprPending 0 (act 0x0B 0x068 [0] [1] 0) = true ∧
    retainCheck (at12 sprPending (act 0x0B 0x068 [0] [1] 0)) 0 = some nackBusy ∧ accepted up 0 (act 0x0B 0x068 [1] [0] 0) = true ∧
    accepted up 0 (act 0x00 0x04C [0] [] 0) = true ∧ accepted up 0 (act 0x00 0x04C [1] [0] 0) = true ∧
    accepted up 0 (act 0x00 0x04C [2] [0, 1] 0) = true ∧ accepted up 0 (act 0x00 0x04C [3] [0, 1, 2] 0) = true := by decide +kernel

/-- Counter 7 counts. -/
def counting : State := regs up [(rk 0x0F 0x0F0, 0x150#32)]

theorem witness_counters : accepted up 0 (act 0x0F 0x040 [1] [] 1) = true ∧ accepted up 0 (wr 0x0F (cntWordOfs 0) 5) = true ∧
    accepted up 0 (wr 0x0F (cntWordOfs 15) 0x12345) = true ∧ accepted counting 0 (wr 0x0F (cntWordOfs 15) 1) = true ∧
    (at12 counting (wr 0x0F (cntWordOfs 15) 1)).rb (rk 0x0F (0x080 + 0x10 * 7)) 8 = true ∧ accepted up 0 (wr 0x0F 0x0F0 0x150) = true ∧
    pmuEvents.contains (fld (hData (reg 0x150).head) 7 0) = true := by decide +kernel

/-- Debug mode with the slice halted, or with a halt asked for. -/
def halted : State := { dbg with obs := { dbg.obs with halted := true } }
@[inherit_doc halted] def haltAsked : State := { dbg with obs := { dbg.obs with haltPend := true } }

theorem witness_debug_mode : accepted up 0 (act 0x10 0x040 [] [1, 2, 3] 1) = true ∧ accepted dbg 0 (act 0x10 0x040 [] [1, 2, 3] 0) = true ∧
    debugMode (at12 dbg (act 0x10 0x040 [] [1, 2, 3] 0)) = true ∧ accepted halted 0 (act 0x10 0x040 [] [1, 2, 3] 0) = true ∧
    (at12 halted (act 0x10 0x040 [] [1, 2, 3] 0)).obs.halted = true ∧ accepted dbg 0 (act 0x10 0x040 [1] [2, 3] 1) = true ∧
    bit (hData (act 0x10 0x040 [1] [2, 3] 1).head) 0 = true ∧ accepted halted 0 (act 0x10 0x040 [2] [1, 3] 1) = true ∧
    accepted haltAsked 0 (act 0x10 0x040 [2] [1, 3] 1) = true ∧ accepted halted 0 (act 0x10 0x040 [3] [1, 2] 1) = true ∧
    accepted dbg 0 (act 0x10 0x040 [3] [1, 2] 1) = true := by decide +kernel

theorem witness_trace_and_events : accepted up 0 (act 0x10 0x04C [2] [] 0) = true ∧ accepted up 0 (wr 0x11 0x050 0x0108) = true ∧
    accepted up 0 (wr 0x11 (0x050 + 4 * 15) 0) = true ∧ selOk (hData (reg 0x0108).head) = true ∧ selOk (hData (reg 0).head) = true ∧
    (at12 up (wr 0x11 0x050 0x0108)).rg (kSel 0) ≠ 0x0108#32 ∧ (at12 up (wr 0x11 (0x050 + 4 * 15) 0)).rg (kSel 15) = 0#32 := by decide +kernel

/-- A wrap that freezes the counters leaves the others the events of its sclk (R468); a new limit leaves a started timer the old one (R362);
the events of the sclk of a CNT_CLR do not count (R469). -/
theorem test_freeze_and_limits :
    (let s := regs up [(rk 0x0F 0x040, 5#32), (rk 0x0F 0x080, 0x141#32), (rk 0x0F 0x090, 0x141#32), (rk 0x0F 0x084, 0xFFFFFFFF#32), (rk 0x0F 0x088, 0xFFFF#32)]
     let b := pmuEv s 0x41 1
     (pmuVal b 0, pmuVal b 1, b.rb (rk 0x0F 0x040) 3) = (0, 1, true) ∧ pmuVal (pmuEv { b with now := b.now + 1 } 0x41 1) 1 = 1) ∧
    (let b := (limitWrite up 0x09 0x064 4096#32).st
     (cnetLimit b 1, cnetLimit b 2) = (32000, 4096)) ∧
    (let s := regs up [(rk 0x0F 0x080, 0x141#32), (rk 0x0F 0x084, 5#32)]
     let b := pmuEv (pmuCtlWrite s 3#32) 0x41 1
     (pmuVal b 0, pmuVal (pmuEv { b with now := b.now + 1 } 0x41 1) 0) = (0, 1)) := by decide +kernel

/-! ### Witnesses: register reads, plain writes, mailboxes -/

theorem witness_plain_registers : (∀ pg ∈ lookPages, accepted up 0 (withOp (rd pg 0x040) 0x30) = true) ∧
    accepted up 0 (withOp (rd 0x01 0x03C) 0x30) = true ∧ (∀ e ∈ plainRegs, accepted up 0 (withOp (wr e.1 e.2 1) 0x31) = true) := by decide +kernel

theorem witness_plain_values : valueOk .L 0x0B 0x058 0#32 = false ∧ (0x0B, 0x058) ∈ plainRegs ∧ accepted up 0 (withOp (wr 0x0B 0x058 0) 0x31) = true := by decide +kernel

theorem witness_patrol_interval : accepted up 0 (withOp (wr 0x09 0x088 5) 0x31) = true ∧ valueOk up.straps.build 0x09 0x088 5#32 = true ∧
    hData (wr 0x09 0x088 5).head = 5#32 ∧ (at12 up (withOp (wr 0x09 0x088 5) 0x31)).rf (rk 0x09 0x088) 8 0 ≠ 5 ∧
    (at12 up (withOp (wr 0x09 0x088 3) 0x31)).rf (rk 0x09 0x088) 8 0 = 3 := by decide +kernel

theorem witness_limits : (∀ e ∈ limitRegs, accepted up 0 (withOp (wr e.1 e.2 1) 0x31) = true) ∧ valueOk .L 0x09 0x064 0#32 = false ∧
    valueOk .L 0x09 0x064 4096#32 = true ∧ (0x09, 0x064) ∈ limitRegs ∧ accepted up 0 (withOp (wr 0x09 0x064 4096) 0x31) = true ∧
    (∀ e ∈ up.ras.limits, e.2.1 < 9) := by decide +kernel

theorem witness_held_reads : accepted up 0 (rd 0x0F (wideLowOfs 8)) = true ∧ accepted up 0 (rd 0x0F (wideLowOfs 0)) = true ∧
    accepted up 0 (rd 0x07 0x074) = true ∧ debugMode (at12 up (rd 0x07 0x074)) = false ∧ accepted up 0 (rd 0x04 0x08C) = true ∧
    accepted up 0 (rd 0x05 0x078) = true ∧ accepted up 0 (rd 0x10 0x060) = true ∧ accepted up 0 (rd 0x10 0x06C) = true := by decide +kernel

/-- Debug mode, an entry of the directory where DBG_SEL points, and a trace record whose words are held. -/
def dbgEnt : State := { dbg with
  dir := { dbg.dir with ents := [(0, ⟨false, 0, 3, 0, false, 0, [4]⟩)] }
  obs := { dbg.obs with trc := [(0, 9#128)], trcCount := 1, trcWr := 1, trcHold := some 7#96 } }

/-- A vector's add has the slot of the lane's bank in the sclk of the read. -/
def bankHeld : State := { dbg with acc := { dbg.acc with lastAdd := [(0, 7)] } }

theorem witness_lane_reads : accepted dbg 0 (rd 0x07 0x074) = true ∧ debugMode (at12 dbg (rd 0x07 0x074)) = true ∧
    (at12 dbg (rd 0x07 0x074)).ras.upsets = [] ∧ viewFree (at12 dbg (rd 0x07 0x074)) 7 = true ∧ accepted bankHeld 0 (rd 0x07 0x074) = true ∧
    debugMode (at12 bankHeld (rd 0x07 0x074)) = true ∧ viewFree (at12 bankHeld (rd 0x07 0x074)) 7 = false ∧
    freeSlot (at12 bankHeld (rd 0x07 0x074)) = some 0 := by decide +kernel

theorem witness_debug_reads :
    accepted dbg 0 (rd 0x04 0x08C) = true ∧ (at12 dbg (rd 0x04 0x08C)).ras.upsets = [] ∧ accepted dbgEnt 0 (rd 0x05 0x078) = true ∧
    (smGet (at12 dbgEnt (rd 0x05 0x078)).dir.ents ((at12 dbgEnt (rd 0x05 0x078)).rf (rk 0x05 0x074) 8 0 * 16 +
      (at12 dbgEnt (rd 0x05 0x078)).rf (rk 0x05 0x074) 15 12)).isSome = true ∧ accepted dbgEnt 0 (rd 0x10 0x060) = true ∧
    accepted dbgEnt 0 (rd 0x10 0x06C) = true ∧ (at12 dbgEnt (rd 0x10 0x06C)).obs.trcHold = some 7#96 := by decide +kernel

/-- The channel is in locked mode, owned by another source than the SMC. -/
def locked (secure : Bool) : State := setMbx (up.rgSet (rk (mbxPage secure) 0x044) 1#32) secure { MbxCh.empty with lock := some (2 ^ 31 + 5, 0) }

/-- A message of the SMC's of two words is half written, or one of another source. -/
def partial_ (secure : Bool) (src : Nat × Nat × Nat) : State := setMbx up secure { MbxCh.empty with
  inPart := some { words := [(0, 0x00000107#32)], src := src, total := 2, bad := false, replied := false }, inWr := 1 }

/-- Outbound: a message of two words, and one popped whole that waits for its acknowledgement. -/
def outbound (secure : Bool) : State := setMbx up secure { MbxCh.empty with
  outMsgs := [{ words := [(0, 0x00000109#32), (1, 5#32)], src := (9, 0, 0), total := 2, bad := false, replied := false }], unacked := some 8 }

theorem witness_doorbells_and_modes : ∀ secure ∈ [false, true], accepted up 0 (act (mbxPage secure) 0x040 [0] [] 0) = true ∧
    accepted up 0 (wr (mbxPage secure) 0x044 1) = true ∧ mbxCtlBusy (at12 up (wr (mbxPage secure) 0x044 1)) secure 1#32 = false ∧
    accepted (locked secure) 0 (wr (mbxPage secure) 0x044 0) = true ∧
    mbxCtlBusy (at12 (locked secure) (wr (mbxPage secure) 0x044 0)) secure 0#32 = true := by decide +kernel

/-- One case each: a header of one word, of two, with reserved bits, too long; the last payload word; another's partial message; a lock. -/
theorem witness_inbound_words : ∀ secure ∈ [false, true], accepted up 0 (wr (mbxPage secure) 0x058 0x007) = true ∧
    accepted up 0 (wr (mbxPage secure) 0x058 0x107) = true ∧ accepted up 0 (wr (mbxPage secure) 0x058 0x807) = true ∧
    accepted (partial_ secure (3, 0, 0)) 0 (wr (mbxPage secure) 0x058 1) = true ∧ hSrc (reg 1).head = (3, 0, 0) ∧
    accepted (partial_ secure (0, 4, 0)) 0 (wr (mbxPage secure) 0x058 1) = true ∧
    accepted (locked secure) 0 (wr (mbxPage secure) 0x058 0x007) = true ∧
    mayUse (at12 (locked secure) (wr (mbxPage secure) 0x058 0x007)) secure (3, 0, 0) = false := by decide +kernel

theorem witness_outbound_words : ∀ secure ∈ [false, true], accepted (outbound secure) 0 (rd (mbxPage secure) 0x05C) = true ∧
    (∀ x ∈ (at12 (outbound secure) (rd (mbxPage secure) 0x05C)).ras.upsets, x.1 ≠ 19) ∧
    mayUse (at12 (outbound secure) (rd (mbxPage secure) 0x05C)) secure (3, 0, 0) = true ∧
    (mbx (at12 (outbound secure) (rd (mbxPage secure) 0x05C)) secure).outMsgs.length = 1 ∧ accepted up 0 (rd (mbxPage secure) 0x05C) = true ∧
    accepted (outbound secure) 0 (act (mbxPage secure) 0x060 [0] [1] 0) = true ∧
    (mbx (at12 (outbound secure) (act (mbxPage secure) 0x060 [0] [1] 0)) secure).unacked = some 8 := by decide +kernel

theorem witness_aborts_and_locks : ∀ secure ∈ [false, true], accepted up 0 (act (mbxPage secure) 0x060 [1] [0] 0) = true ∧
    accepted (partial_ secure (3, 0, 0)) 0 (act (mbxPage secure) 0x060 [1] [0] 0) = true ∧
    accepted (partial_ secure (0, 4, 0)) 0 (act (mbxPage secure) 0x060 [1] [0] 0) = true ∧ accepted up 0 (rd (mbxPage secure) 0x04C) = true ∧
    accepted (locked secure) 0 (rd (mbxPage secure) 0x04C) = true ∧ mbxLocked (at12 (locked secure) (rd (mbxPage secure) 0x04C)) secure = true ∧
    accepted (up.rgSet (rk (mbxPage secure) 0x044) 1#32) 0 (rd (mbxPage secure) 0x04C) = true ∧
    accepted (locked secure) 0 (wr (mbxPage secure) 0x04C 0) = true := by decide +kernel

/-- Ring 1 may reach the non-secure channel's queue; its abort of another's message is the refused case. -/
def ring1 : State := regs (partial_ false (0, 4, 0)) [(rk 0x02 0x048, 3#32)]

theorem witness_abort_refused : accepted ring1 0 (let p := act 0x0C 0x060 [1] [0] 0; p.withHead (setFld p.head 13 12 1)) = true ∧
    hRing (let p := act 0x0C 0x060 [1] [0] 0; p.withHead (setFld p.head 13 12 1)).head = 1 := by decide +kernel

/-! ### Witnesses: requests for memory -/

theorem witness_checks_nop : accepted up 0 (nopOf (core 0 0 0 0)) = true ∧ hOpcode (nopOf (core 0 0 0 0)).head = 0 ∧
    heard up 0 (withOp (core 0 0 0 0) 0x38) = true ∧ onRequest (withOp (core 0 0 0 0) 0x38) = true ∧ heard up 0 (withOp (core 0 0 0 0) 0x39) = true := by decide +kernel

/-- A header whose TXN bits are sound but whose reserved bit 7 is set is refused at some stage, whatever its opcode. -/
def ill : CPacket := (core 2 0 0 0).withHead (setFld (core 2 0 0 0).head 7 7 1)

theorem witness_checks_refuse : ∀ r ∈ (requestRows 0 ill).filter (fun r => lengthOk r.2.head 0),
    heard up 0 r.2 = true ∧ onRequest r.2 = true ∧ (refusal up 0 r.2).isSome = true := by decide +kernel

/-- The same with the payload that each of the other rows carries. -/
theorem witness_checks_refuse_payload : ∀ n ∈ [1, 2, 4], ∀ size ∈ [2, 6, 7],
    ∀ r ∈ (requestRows 0 ((core size 0 0 n).withHead (setFld (core size 0 0 n).head 7 7 1))).filter (fun r => lengthOk r.2.head n),
    heard up 0 r.2 = true ∧ onRequest r.2 = true ∧ (refusal up 0 r.2).isSome = true := by decide +kernel

/-- A fused-off slice, and one in retention. -/
def fused : State :=
  State.coldStart (State.cold { Straps.model with fused := true, good := 0 } 0 (List.replicate 10 0) 0 []) 0
@[inherit_doc fused] def retained : State := { up with pwr := { up.pwr with logic := false, retained := true, eng := .off, smc := .off } }

theorem witness_shell_fused : ∀ p ∈ [rd 0x00 0x000, core 0 0 0 0], onRequest p = true ∧ sound p = true ∧ inReset (advance fused 0) = false ∧
    fused.straps.fused = true := by decide +kernel

theorem witness_shell_reads : onRequest (rd 0x00 0x044) = true ∧ sound (rd 0x00 0x044) = true ∧ inReset (advance retained 0) = false ∧
    retained.straps.fused = false ∧ shellServes (advance retained 0) = true ∧ hOpcode (rd 0x00 0x044).head = 0x30 ∧ hSpace (rd 0x00 0x044).head = 2 ∧
    shellRead (rPage (rd 0x00 0x044).head) (rOfs (rd 0x00 0x044).head) = true ∧
    checkReg (atInput retained 0 (rd 0x00 0x044)) (rd 0x00 0x044).head = none ∧ sound (core 0 0 0 0) = true ∧
    hOpcode (core 0 0 0 0).head ≠ 0x30 ∧ hOpcode (core 0 0 0 0).head ≠ 0x31 := by decide +kernel

theorem witness_shell_writes : ∀ q ∈ [act 0x0B 0x068 [1] [0] 0, act 0x00 0x04C [0] [] 0, act 0x00 0x04C [1] [0] 0],
    onRequest q = true ∧ sound q = true ∧ shellServes (advance retained 0) = true ∧ hOpcode q.head = 0x31 ∧ hSpace q.head = 2 ∧
    shellWrite (rPage q.head) (rOfs q.head) (hData q.head) = true ∧ checkReg (atInput retained 0 q) q.head = none ∧
    badValue .L (rPage q.head) (rOfs q.head) (hData q.head) = false ∧ hS q.head = true := by decide +kernel

theorem witness_shell_exit : (atInput retained 0 (act 0x0B 0x068 [1] [0] 0)).pwr.retained = true ∧
    (atInput retained 0 (act 0x0B 0x068 [1] [0] 0)).pwr.logicUp = none := by decide +kernel

/-- A stream request: KIND 2, SIZE 7. -/
def stream (addr param n : Nat) : CPacket := req 0 0 7 2 addr param (data n)

theorem witness_uncached : ∀ r ∈ [(withOp (core 2 0 0 0) 0x01), (withOp (core 2 0x40 0 1) 0x05), (withOp (core 7 0x80 0 4) 0x06)],
    accepted open_ 0 r = true ∧ attends (at12 open_ r) ∧ freeSlot (at12 open_ r) = some 0 ∧ atHome (regionOf open_ 0 r) r.head = false := by
  unfold attends wordsSound; decide +kernel

theorem witness_push : accepted open_ 0 (withOp (stream 0x20000 0 4) 0x29) = true ∧ attends (at12 open_ (withOp (stream 0x20000 0 4) 0x29)) ∧
    freeSlot (at12 open_ (withOp (stream 0x20000 0 4) 0x29)) = some 0 := by
  unfold attends wordsSound; decide +kernel

/-- The uncached atomics with their sizes and payloads. -/
def atomics : List CPacket := [0x10, 0x11, 0x12, 0x13, 0x14, 0x15, 0x16, 0x17, 0x18, 0x19, 0x1A, 0x1B, 0x1C].map (withOp (core 2 0x100 0 1)) ++
  [withOp (core 6 0x100 0 2) 0x1D]

theorem witness_atomics : ∀ q ∈ atomics, accepted open_ 0 q = true ∧ attends (at12 open_ q) ∧ freshSlot (at12 open_ q) 0 ∧
    atHome (regionOf open_ 0 q) q.head = false := by
  unfold attends wordsSound freshSlot; decide +kernel

/-- A quench is in force; group 0 is open to vectors of ring 0. -/
def quenchedUp : State := { open_ with fab := { open_.fab with quench := some 0 } }
@[inherit_doc quenchedUp] def vaccUp : State := regs { open_ with acc := { open_.acc with groups := [(0, ⟨2, 0, 64, 0, false, 0, 1000⟩)] } }
  [(rk 0x07 0x04C, 1#32), (rk 0x07 0x050, 1#32)]

theorem witness_atomics_held : ∀ q ∈ atomics, accepted quenchedUp 0 q = true ∧ quenched (at12 quenchedUp q) = true ∧ q.vc.toNat = 0 ∧
    isAtomic (hOpcode q.head) = true ∧ freeSlot (at12 quenchedUp q) = some 0 := by decide +kernel

theorem witness_vector : accepted vaccUp 0 (withOp (core 6 0 0 2) 0x1E) = true ∧ attends (at12 vaccUp (withOp (core 6 0 0 2) 0x1E)) ∧
    freeSlot (at12 vaccUp (withOp (core 6 0 0 2) 0x1E)) = some 0 := by
  unfold attends wordsSound; decide +kernel

/-- Way 3 of set 1 holds line 512, CLEAN; core 0 holds it alone. -/
def cached : State := { open_ with cch := { open_.cch with ways := [(19, ⟨false, 512, 0, false, 1, false, false, false, false, 5⟩)] } }
@[inherit_doc cached] def owned : State := { cached with dir := { cached.dir with ents := [(16, ⟨false, 512, 3, 0, false, 0, [0]⟩)] } }

theorem witness_home_reads : ∀ op ∈ [0x01, 0x02, 0x03, 0x04],
    let q := withOp (core 7 0x10000 0 0) op
    accepted cached 0 q = true ∧ attends (at12 cached q) ∧ freshSlot (at12 cached q) 0 ∧
      atHome (regionOf cached 0 q) q.head = true ∧ lineFree (at12 cached q) q.head ∧ reqLine q.head = (false, 512) ∧ cacheSet 512 = 1 ∧
      findWay (at12 cached q) false 512 = some 3 ∧ (getWay (at12 cached q) 1 3).st ≠ 3 ∧ (at12 cached q).dir.txns = [] ∧
      ∃ v ∈ dirWays (at12 cached q), (at12 cached q).dir.sweep.testBit v = false ∧ smGet (at12 cached q).dir.ents (1 * 16 + v) = none := by
  unfold attends wordsSound lineFree freshSlot; decide +kernel

theorem witness_home_writes : ∀ q ∈ [withOp (core 2 0x10000 0 1) 0x05, withOp (core 7 0x10000 0 4) 0x06, withOp (core 7 0x10000 0 0) 0x26],
    accepted cached 0 q = true ∧ attends (at12 cached q) ∧ freshSlot (at12 cached q) 0 ∧
      atHome (regionOf cached 0 q) q.head = true ∧ lineFree (at12 cached q) q.head ∧ findWay (at12 cached q) false 512 = some 3 ∧
      (getWay (at12 cached q) 1 3).st ≠ 3 := by
  unfold attends wordsSound lineFree freshSlot; decide +kernel

theorem witness_writebacks : ∀ q ∈ [withOp (core 7 0x10000 0 4) 0x07, withOp (core 7 0x10000 0 0) 0x08],
    accepted owned 0 q = true ∧ attends (at12 owned q) ∧ freshSlot (at12 owned q) 0 ∧ lineBusy (at12 owned q) false 512 = false ∧
      dirFind (at12 owned q) false 512 = some (16, ⟨false, 512, 3, 0, false, 0, [0]⟩) ∧ hSrcId q.head = 0 ∧ findWay (at12 owned q) false 512 = some 3 := by
  unfold attends wordsSound freshSlot; decide +kernel

theorem witness_maintenance : ∀ op ∈ [0x20, 0x21, 0x22],
    let q := withOp (core 7 0x11000 0 0) op
    accepted cached 0 q = true ∧ attends (at12 cached q) ∧ freshSlot (at12 cached q) 0 ∧
      atHome (regionOf cached 0 q) q.head = true ∧ lineFree (at12 cached q) q.head ∧ findWay (at12 cached q) false 544 = none ∧
      wbFind (at12 cached q) false 544 = none ∧ reqLine q.head = (false, 544) := by
  unfold attends wordsSound lineFree freshSlot; decide +kernel

theorem witness_set_way : ∀ op ∈ [0x23, 0x24, 0x25], ∀ way ∈ [0, 3],
    let q := withOp (core 7 0 (1 + way * 2 ^ 16) 0) op
    accepted cached 0 q = true ∧ attends (at12 cached q) ∧ freshSlot (at12 cached q) 0 ∧
      (getWay (at12 cached q) (fld q.head 168 160) (fld q.head 179 176)).st < 2 ∧ wbFind (at12 cached q) false 512 = none := by
  unfold attends wordsSound freshSlot; decide +kernel

/-- A pull of four raw lines is open in context 0. -/
def pulling : State :=
  let h := (withOp (stream 0x20000 4 0) 0x28).head
  { open_ with
    fab := { open_.fab with reqs := [(0, { head := setFld h 31 24 9, payload := [], vc := 0, arrived := 0, progress := 0, phase := .pull })] }
    dec := { open_.dec with pulls := [(0, pullOf open_ (some (actRegion open_ 2)) h 0 true)] } }

theorem witness_pulls : accepted open_ 0 (withBits (withOp (stream 0x20000 4 0) 0x28) [] [56]) = true ∧
    attends (at12 open_ (withBits (withOp (stream 0x20000 4 0) 0x28) [] [56])) ∧
    (List.range 8).find? (fun c => (getPull (at12 open_ (withBits (withOp (stream 0x20000 4 0) 0x28) [] [56])) c).isNone) = some 0 := by
  unfold attends wordsSound; decide +kernel

/-- Every entry of the request table is taken, by requests of other tuples. -/
def full (s : State) : State := { s with fab := { s.fab with
  reqs := (List.range 64).map fun k => (k, { head := setFld (core 2 0 0 0).head 41 32 (100 + k), payload := [], vc := 0, arrived := 0, progress := 0, phase := .thallus }) } }

theorem witness_abort_in_full_table :
    let q := withBits (withOp (stream 0x20000 (9 * 2 ^ 48) 0) 0x28) [56] []
    accepted (full open_) 0 q = true ∧ freeSlot (at12 (full open_) q) = none := by decide +kernel

/-- An abort that names no pull, and one that names the pull of TXN 9. -/
theorem witness_pull_aborts :
    let q := withBits (withOp (stream 0x20000 (9 * 2 ^ 48) 0) 0x28) [56] []
    accepted open_ 0 q = true ∧ attends (at12 open_ q) ∧ accepted pulling 0 q = true ∧ attends (at12 pulling q) ∧ freeSlot (at12 pulling q) = some 1 ∧
      hTuple (getReq (at12 pulling q) 0 |>.map (·.head) |>.getD 0) = (hSrcChip q.head, hSrcType q.head, hSrcId q.head, pAbortTxn q.head) ∧
      (∀ e ∈ (at12 pulling q).dec.pulls, (getReq (at12 pulling q) e.2.slot).isSome = true) := by
  unfold attends wordsSound; decide +kernel

/-! ### Witnesses: responses and ports -/

/-- A response of a kind of agent to the slice with a code and a TXN. -/
def rsp (vc opcode code srcType src txn addr n : Nat) : CPacket :=
  mkPacket vc (mkHead opcode code (mkFld 6 5 1) txn (srcType, src, 0) (1, 0, 0) addr 0) (data n)

/-- The INT of page 9 to core 4 is out, in its first or its fourth attempt, and the EVT of TXN 0x33. -/
def waiting (n : Nat) : State := { up with fab := { up.fab with
  ints := [{ txn := some 9, page := 9, vector := 1, dest := 1, target := 4, attempts := n, since := 0, failedAt := none }]
  evts := [⟨0x33, (0, 4, 0), 0⟩] } }

theorem witness_responses : heard up 0 (withVc (core 0 0 0 0) 1) = true ∧ (∀ n ∈ [1, 4], ∀ code ∈ [0, 11],
    let q := withVc (withOp (rsp 2 0x50 code 0 4 9 0 0) 0x50) 2
    heard (waiting n) 0 q = true ∧ rspBadBits q.head = [] ∧ (findInt (atInput (waiting n) 0 q) q.head).isSome = true ∧ hResp q.head = code) ∧
    (let q := withVc (withOp (rsp 2 0x50 0 0 4 0x33 0 0) 0x50) 2
     heard (waiting 1) 0 q = true ∧ rspBadBits q.head = [] ∧ findInt (atInput (waiting 1) 0 q) q.head = none ∧
       (findEvt (atInput (waiting 1) 0 q) q.head).isSome = true) := by decide +kernel

/-- Way 3 of set 5 waits for line 5 of host memory, asked of host agent 2 with TXN 8. -/
def fillWaits : State := { filling with cch := { filling.cch with ways := [(83, ⟨true, 5, 0, false, 3, false, false, false, false, 0⟩)] } }

theorem witness_fill_data :
    let q := withVc (withOp (rsp 3 0x51 0 2 2 8 0 4) 0x51) 3
    let a := atInput fillWaits 0 q
    heard fillWaits 0 q = true ∧ rspBadBits q.head = [] ∧ hResp q.head ≤ 1 ∧ q.payload ≠ [] ∧ wordsSound a ∧ findInt a q.head = none ∧
      findEvt a q.head = none ∧ (∀ e ∈ a.dir.txns, e.2.mark = false) ∧ fromHost a q.head = true ∧
      a.cch.fills.find? (fun f => f.txn == some (hTxn q.head)) = some ⟨5, 3, false, some 8, 0⟩ ∧
      fillOf a 5 3 = some ⟨5, 3, false, some 8, 0⟩ ∧ fillWaiters a 5 3 = [] ∧ (getWay a 5 3).st = 3 := by
  unfold wordsSound; decide +kernel

/-- An open transaction of entry 0 on line 512: a coherent read of core 1, or the eviction of the line from core 0. -/
def txn (stage : Nat) (op : Nat) (awaits : Bool) (ack : Option Nat) : Txn :=
  { space := false, x := 512, stage := stage, fwd := none, ack := ack, poison := false, data := none, merge := none, acked := false, bcast := false, cls := 0, mark := false
    place := none
    awaits := if awaits then [{ core := 0, op := op, since := 0, answered := false, miss := false, wb := false, left := true }] else [] }
@[inherit_doc txn] def withTxn (s : State) (op : Nat) (x : Txn) : State :=
  let p := withOp (core 7 0x10000 0 0) op
  { s with
    fab := { s.fab with reqs := [(0, { head := setFld p.head 41 32 1, payload := [], vc := 0, arrived := 0, progress := 0, phase := .home })] }
    dir := { s.dir with txns := [(0, x)] } }

theorem witness_read_acknowledged :
    let s := withTxn owned 0x02 (txn 4 0x40 false (some 0))
    let q := withVc (withOp (rsp 2 0x52 0 0 1 5 0 0) 0x52) 2
    let a := atInput s 0 q
    heard s 0 q = true ∧ rspBadBits q.head = [] ∧ wordsSound a ∧ getTxn a 0 = some (txn 4 0x40 false (some 0)) ∧
      a.dir.txns.find? (fun e => match getReq a e.1 with
        | some r => isCohRead r.head && !e.2.acked && hSrc r.head == hSrc q.head && hTxn r.head == hTxn q.head
        | none => false) = some (0, txn 4 0x40 false (some 0)) ∧ (txn 4 0x40 false (some 0)).settled = true := by
  unfold wordsSound; decide +kernel

theorem witness_forward_answers : ∀ op ∈ [0x53, 0x54],
    let x := txn 2 0x40 true none
    let s := withTxn owned 0x02 x
    let q := withVc (withOp (rsp 2 op 0 0 0 (wireTxn 0) 0x10000 0) op) 2
    let a := atInput s 0 q
    heard s 0 q = true ∧ answers a q.head 0 0 x { core := 0, op := 0x40, since := 0, answered := false, miss := false, wb := false, left := true } ∧ wordsSound a ∧
      (getReq a 0).isSome = true ∧ dirFind a false 512 = some (16, ⟨false, 512, 3, 0, false, 0, [0]⟩) ∧ x.merge = none ∧ x.acked = false := by
  unfold answers wordsSound; decide +kernel

theorem witness_snoop_answers : ∀ c ∈ [(0x55, 2, 0), (0x57, 3, 4)],
    let w : Await := { core := 0, op := 0x43, since := 0, answered := false, miss := false, wb := false, left := true }
    let x := { txn 1 0x43 true none with awaits := [w, { w with core := 2 }] }
    let s := withTxn owned 0x05 x
    let q := withVc (withOp (rsp c.2.1 c.1 0 0 0 (wireTxn 0) 0x10000 c.2.2) c.1) c.2.1
    let a := atInput s 0 q
    heard s 0 q = true ∧ answers a q.head 0 0 x w ∧ wordsSound a ∧
      (Txn.settled { x with awaits := x.awaits.set 0 { w with answered := true } } = false) ∧
      dirFind a false 512 = some (16, ⟨false, 512, 3, 0, false, 0, [0]⟩) := by
  unfold answers wordsSound; decide +kernel

/-- A response and two S-net messages wait, and the INT of page 9 has failed at sclk 0. -/
def sending : State := { up with fab := { up.fab with
  out := [{ vc := 2, head := 0, payload := [], readyAt := 0, pull := none, op := 0, order := none }]
  sOut := [⟨2, 7, 0⟩, ⟨7, 0x700, 0⟩]
  ints := [{ txn := none, page := 9, vector := 1, dest := 1, target := 4, attempts := 1, since := 0, failedAt := some 0 }] } }

/-- The response carries an order. -/
def ordering (x : Order) : State := { sending with fab := { sending.fab with out := sending.fab.out.map fun o => { o with order := some x } } }

theorem witness_ordering_responses : ∀ x ∈ [Order.retain, .reset .warm],
    let a := advance (ordering x) 0
    inReset a = false ∧ a.fab.laneFree ≤ 0 ∧ (choosePacket a).map (fun c => (c.2.order, c.2.pull)) = some (some x, none) ∧
      a.pwr.retainAt = none ∧ a.pwr.ordered = none := by decide +kernel

/-- In fail-stop since sclk 0. -/
def failing : State := { up with ras := { up.ras with fsAt := some 0, faultAt := 0 } }

theorem witness_ports : inReset (advance sending 0) = false ∧ (advance sending 0).fab.laneFree ≤ 0 ∧ (choosePacket (advance sending 0)).isSome = true ∧
    ((choosePacket (advance sending 0)).map fun c => c.2.pull) = some none ∧
    choosePacket (advance up 0) = none ∧ (advance sending 0).fab.sFree ≤ 0 ∧ chooseSnet (advance sending 0) = some (1, ⟨7, 0x700, 0⟩) ∧
    logicRuns (advance sending 1024) = true ∧ failed (advance sending 1024) = false ∧
    ((advance sending 1024).fab.ints.find? fun i => i.page == 9 && (match i.failedAt with | some f => decide (f + 1024 ≤ 1024) | none => false)).isSome = true ∧
    failed (advance failing 4096) = true ∧ (advance failing 4096).ras.faultAt + 4096 ≤ 4096 := by decide +kernel

/-- A request's answer of the home is next, as are an `INT` and a forward; or one more answer of the same tuple waits behind. -/
def answerNext (x : Txn) (vc : Nat) : State :=
  let s := withTxn owned 0x02 x
  { s with fab := { s.fab with out := [{ vc := vc, head := mkHead (if vc = 2 then 0x50 else if vc = 1 then 0x40 else 0x38) 0 0 5 (1, 0, 0) (0, 1, 0) 0 0
                                         payload := [], readyAt := 0, pull := none, op := 0, order := none, entry := vc == 2 }] } }

theorem witness_packets_with_entries :
    (∀ x ∈ [txn 4 0x40 false none, txn 4 0x40 false (some 0)],
      let a := advance (answerNext x 2) 0
      inReset a = false ∧ a.fab.laneFree ≤ 0 ∧ (choosePacket a).map (fun c => (c.1, c.2.vc, c.2.entry, c.2.pull)) = some (0, 2, true, none) ∧
        (a.fab.out.map fun o => (a.fab.reqs.find? fun e => answersTuple e.2.head o).map (·.1)) = [some 0] ∧ a.fab.out.eraseIdx 0 = [] ∧ (getReq a 0).isSome = true ∧
        getTxn a 0 = some x) ∧
    (txn 4 0x40 false none).over = true ∧ (txn 4 0x40 false none).ack = none ∧ (txn 4 0x40 false (some 0)).acked = false ∧
    (∀ vc ∈ [0, 1], let a := advance (answerNext (txn 4 0x40 false none) vc) 0
      (choosePacket a).map (fun c => (c.1, c.2.vc, c.2.pull)) = some (0, vc, none)) := by decide +kernel

/-! ### Witnesses: the S-net, frames and fronds -/

/-- A barrier of id 7 is waited for; tokens are asked for; a quench is in force. -/
def barred : State := { up with frm := { up.frm with barriers := [(3, 7, 1000)], frame0 := some 0 } }
@[inherit_doc barred] def asking : State := { up with
  straps := { up.straps with tokenEn := true }, pwr := { up.pwr with req := some (2, 0, 0, false), queue := [9] } }

theorem witness_snet_hears : hearsSnet up 0 ∧ quenched (advance (advance up 0) 1) = false ∧ hearsSnet quenchedUp 0 ∧
    quenched (advance (advance quenchedUp 0) 1) = true ∧ hearsSnet asking 0 ∧ (0#8).toNat = asking.straps.tile ∧ 1 ≤ (3#4).toNat ∧
    (advance (advance (advance asking 0) 1) 2).pwr.req = some (2, 0, 0, false) ∧ (7#8).toNat ≠ up.straps.tile ∧ (7#4).toNat ≤ 7 := by
  unfold hearsSnet; decide +kernel

theorem witness_barrier_release : hearsSnet barred 0 ∧
    let b1 := advance (advance barred 0) 1
    (b1.frm.barriers.find? fun b => b.2.1 == (7#12).toNat && decide (1 ≤ b.2.2) && decide (frameAt b1 (eStart (actEnts b1 b.1)) < 1)) = some (3, 7, 1000) ∧
      (b1.frm.barriers.find? fun b => b.2.1 == (8#12).toNat) = none := by
  unfold hearsSnet; decide +kernel

/-- A beat 1 with its top bit set, and a beat pair whose nibbles do not cancel. -/
theorem witness_snet_discard : bit 0x8802#16 15 = true ∧ bit 0xA347#16 15 = true ∧
    (List.range 4).foldl (fun c i => c ^^^ fld 0x8802#16 (4 * i + 3) (4 * i) ^^^ fld 0x2346#16 (4 * i + 3) (4 * i)) 0 ≠ 0 := by decide +kernel

/-- Half 0 holds a program of these entries, and its frame has run since sclk 0. -/
def prog (es : List Nat) : State :=
  let words := fun (i e : Nat) => (List.range 8).map fun w => (i * 8 + w, BitVec.ofNat 32 (e / 2 ^ (32 * w)))
  { open_ with frm := { open_.frm with
      state := .running, active := some ⟨true, 96, 0, 0⟩, frame0 := some 0, runs := true, tickRef := some 0
      mem := (words 0 (es.length * 2 ^ 24) ++ (es.zipIdx.flatMap fun e => words (e.2 + 1) e.1)).filter fun w => w.2 != 0 } }

/-- A halt that is asked for takes effect at a tick; after a STEP one frame runs first (R475). -/
theorem test_halt_and_step :
    let s := regs (prog []) [(rk 0x01 0x040, 1#32)]
    let asked := { s with obs := { s.obs with haltPend := true } }
    let h := onTimeTick asked 5
    let r := onTimeTick { asked with obs := { asked.obs with stepping := true } } 6
    (h.obs.halted, h.obs.haltFrame, h.obs.haltPend, h.frm.state) = (true, 5, false, .stopped) ∧
      (r.obs.halted, r.obs.haltPend, r.frm.runs, r.frm.state) = (false, true, true, .running) ∧ (onTimeTick r 7).obs.halted = true := by decide +kernel

/-- An entry of a kind with SUB, START 200, LINES or LANES and BEATS, and PACE 2. -/
def ent (kind sub beats : Nat) : Nat := kind + sub * 16 + 200 * 2 ^ 8 + 0x777 * 2 ^ 32 + 64 * 2 ^ 96 + beats * 2 ^ 112 + 2 * 2 ^ 128

/-- Group 0 opens at sclk 100 with 128 lanes, and closes at 200 by an action. -/
def opener_ : Nat := 4 + 100 * 2 ^ 8 + 128 * 2 ^ 96
@[inherit_doc opener_] def closer (action : Nat) : Nat := 5 + 200 * 2 ^ 8 + action * 2 ^ 72 + 20 * 2 ^ 112 + 3 * 2 ^ 144
@[inherit_doc opener_] def closing (action : Nat) : State :=
  let s := prog [opener_, closer action, 0]
  { s with
    frm := { s.frm with progress := [(1, 128)] }
    acc := { s.acc with groups := [(0, ⟨2, 0, 128, 0, false, 1, 199⟩)] } }

/-- Every row of an entry of its own finds that entry due at sclk 200. -/
theorem witness_fronds : ∀ e ∈ [ent 1 0 0, ent 2 0 1, ent 3 0 1, ent 4 0 0, closer 0, closer 1, closer 2, closer 3, closer 4, ent 6 0 1, ent 6 1 1,
      7 + 200 * 2 ^ 8 + 2 ^ 73, 8 + 200 * 2 ^ 8 + 2 ^ 73, 9 + 200 * 2 ^ 8 + 7 * 2 ^ 64 + 99 * 2 ^ 96, 10 + 200 * 2 ^ 8 + 0x105 * 2 ^ 64],
    let s := prog [e]
    let c := catchUp (advance s 200) 200
    frondDue s 200 1 ∧ smGet c.frm.progress 1 = none ∧ frameAt c (eStart (actEnts c 1)) = 200 ∧ unquenched c 200 = true ∧
      c.pwr.tiers.length = 10 := by
  unfold frondDue wordsSound; decide +kernel

theorem witness_frond_kinds : (∀ r ∈ [(1, ent 1 0 0), (2, ent 2 0 1), (3, ent 3 0 1), (4, ent 4 0 0)], ofKind r.1 (BitVec.ofNat 256 r.2) = true) ∧
    (∀ a ∈ [0, 1, 2, 3, 4], ofClose a (BitVec.ofNat 256 (closer a)) = true) ∧ ofForward 0 (BitVec.ofNat 256 (ent 6 0 1)) = true ∧
    ofForward 1 (BitVec.ofNat 256 (ent 6 1 1)) = true := by decide +kernel

theorem witness_closes : ∀ a ∈ [0, 1, 2, 3, 4],
    let c := catchUp (advance (closing a) 200) 200
    frondDue (closing a) 200 2 ∧ smGet c.frm.progress 2 = none ∧ frameAt c (eStart (actEnts c 2)) = 200 ∧ unquenched c 200 = true ∧
      ofClose a (actEnts c 2) = true ∧ (getGroup c 0).map (·.st) = some 2 ∧
      (a = 1 ∨ a = 2 ∨ a = 4 → ∃ y ∈ claimsOf (penvOf c) (actEnts c) 2, 200 < frameAt c y.t) := by
  unfold frondDue wordsSound; decide +kernel

theorem witness_wakes_and_sleeps : ((7 + 200 * 2 ^ 8 + 2 ^ 73 : Nat) / 2 ^ 64 % 2 ^ 10).testBit 9 = true ∧
    (tier (catchUp (advance (prog [8 + 200 * 2 ^ 8 + 2 ^ 73]) 200) 200) 9).st = .awake ∧
    (tier (catchUp (advance { prog [7 + 200 * 2 ^ 8 + 2 ^ 73] with pwr := t9Asleep.pwr } 200) 200) 9).st = .sleep ∧
    t9Needed (catchUp (advance (prog [8 + 200 * 2 ^ 8 + 2 ^ 73]) 200) 200) = false := by decide +kernel

/-- The beat of an ingress frond that has started is due at sclk 200; it has come, or it has not. -/
def beatDue (e : Nat) (here : Bool) : State :=
  let s := prog [e]
  { s with frm := { s.frm with progress := [(1, 0)], ingress := if here then [⟨1, 0, ⟨5, false, true⟩⟩] else [] } }

theorem witness_ingress_beats : ∀ e ∈ [(ent 2 0 2, 0), (ent 3 0 1, 2), (ent 6 1 1, 2)], ∀ here ∈ [true, false],
    let s := beatDue e.1 here
    let c := catchUp (advance s 200) 200
    let l := claimsOf (penvOf c) (actEnts c) 1
    unquenched c 200 = true ∧ smGet c.frm.progress 1 = some 0 ∧ 0 < (claimsRaw (penvOf c) (actEnts c) 1).length ∧
      (l.head?.map fun x => (x.cls, frameAt c x.t, x.k)) = some (e.2, 200, 0) ∧
      (∀ y ∈ l.drop 1, 200 < frameAt c y.t ∨ ofKind 2 (actEnts c 1) = true ∧ y.cls = 2 ∧ frameAt c y.t = 200) := by
  decide +kernel

theorem witness_ingress_due : ∀ e ∈ [ent 2 0 2, ent 3 0 1, ent 6 1 1], ∀ here ∈ [true, false], frondDue (beatDue e here) 200 1 := by
  unfold frondDue wordsSound; decide +kernel

/-- The sideband of a flit below its CRC: VALID and a TAG. -/
def side (tag : Nat) : BitVec 48 := BitVec.ofNat 48 (1 + tag * 2 ^ 8)

/-- A flit with its CRC right or wrong. -/
def flit (good : Bool) (tag : Nat) : BFlit :=
  { data := 9, side := (if good then bnetCrc (side tag) 9 else bnetCrc (side tag) 9 ^^^ 1) ++ side tag, spare := 0 }

/-- An idle flit whose lane 5 reads 1, or none. -/
def idleFlit (one : Bool) : BFlit := { data := if one then 32 else 0, side := 0, spare := 0 }

/-- A program with an ingress frond runs; and a quench, or a frame fault before any frame, drops flits. -/
def ingressRuns : State := advance (prog [ent 2 0 1]) 190
@[inherit_doc ingressRuns] def flitsDrop : State := { up with frm := { up.frm with quietB := true } }

theorem witness_flit_state : logicRuns ingressRuns = true ∧ failed ingressRuns = false ∧ quenched ingressRuns = false ∧
    ingressRuns.frm.quietB = false ∧ injArmed ingressRuns 10 = false ∧ matchFlit ingressRuns 0x777 0 false = some (1, 0) ∧
    matchFlit ingressRuns 0x778 0 false = none ∧ logicRuns (advance flitsDrop 9) = true ∧ failed (advance flitsDrop 9) = false ∧
    (advance flitsDrop 9).frm.quietB = true := by decide +kernel

/-- No lane of that slice is replaced: a flit is taken as it comes. -/
theorem witness_no_lane_replaced (f : BFlit) : steerIn ingressRuns f = (f.data, f.side) := by
  have h : spareLanes ingressRuns 0 = [] := by decide +kernel
  simp [steerIn, h]

theorem fld_low (crc : BitVec 16) (low : BitVec 48) (hi lo : Nat) (h : hi < 48) : fld (crc ++ low) hi lo = fld low hi lo := by
  apply Nat.eq_of_testBit_eq
  intro i
  simp only [fld, Nat.testBit_mod_two_pow, Nat.testBit_shiftRight, ← BitVec.getLsbD.eq_1, BitVec.getLsbD_append]
  by_cases hi' : i < hi + 1 - lo
  · simp [show lo + i < 48 by omega]
  · simp [hi']

theorem fld_crc (crc : BitVec 16) (low : BitVec 48) : fld (crc ++ low) 63 48 = crc.toNat := by
  apply Nat.eq_of_testBit_eq
  intro i
  simp only [fld, Nat.testBit_mod_two_pow, Nat.testBit_shiftRight, ← BitVec.getLsbD.eq_1, BitVec.getLsbD_append]
  by_cases hi' : i < 63 + 1 - 48
  · simp [hi']
  · simp [hi', BitVec.getLsbD_of_ge, show 16 ≤ i by omega]

theorem low_of (crc : BitVec 16) (low : BitVec 48) : (crc ++ low).extractLsb' 0 48 = low := by
  apply BitVec.eq_of_getLsbD_eq
  intro i hi
  rw [BitVec.getLsbD_extractLsb', BitVec.getLsbD_append]
  simp [hi]

theorem bit_low (crc : BitVec 16) (low : BitVec 48) : bit (crc ++ low) 0 = bit low 0 := by
  unfold bit
  rw [BitVec.getLsbD_append]
  rfl

theorem witness_flits (good : Bool) : ∀ tag ∈ [0x777, 0x778], bit (flit good tag).side 0 = true ∧ fld (flit good tag).side 7 5 = 0 ∧
    fld (flit good tag).side 47 44 = 0 ∧ fld (flit good tag).side 23 8 = tag ∧ fld (flit good tag).side 35 24 = 0 := by
  simp only [flit, bit_low, fld_low _ _ _ _ (by decide : 7 < 48), fld_low _ _ _ _ (by decide : 47 < 48), fld_low _ _ _ _ (by decide : 23 < 48),
    fld_low _ _ _ _ (by decide : 35 < 48)]
  decide

theorem witness_flit_crc (tag : Nat) :
    fld (flit true tag).side 63 48 = (bnetCrc ((flit true tag).side.extractLsb' 0 48) (flit true tag).data).toNat ∧
    fld (flit false tag).side 63 48 ≠ (bnetCrc ((flit false tag).side.extractLsb' 0 48) (flit false tag).data).toNat := by
  simp only [flit, fld_crc, low_of]
  refine ⟨rfl, fun h => ?_⟩
  have h1 := congrArg (BitVec.getLsbD · 0) (BitVec.eq_of_toNat_eq h)
  simp at h1

theorem witness_idle_flits : ∀ one ∈ [true, false], bit (steerIn ingressRuns (idleFlit one)).2 0 = false ∧
    idleOnes (steerIn ingressRuns (idleFlit one)) = (if one then [5] else []) := by decide +kernel

/-- An active lane map entry lets spare 3 carry lane 5: the flit takes its bit 5 from the spare alone (R384). -/
theorem test_lane_steered :
    let s := { up with spr := { up.spr with laneAct := [(3, 0x00008005#32)] } }
    (steerIn s { data := 0xFFFF, side := 0, spare := 0 }).1 = 0xFFDF#1024 ∧ (steerIn s { data := 0, side := 0, spare := 8 }).1 = 32#1024 := by
  decide +kernel

/-- The engine in each state, its reference at sclk 0, the tick out of its window. -/
theorem witness_lost_tick : ∀ x ∈ [FState.idle, .stopped, .running, .resync],
    let s : State := { up with frm := { up.frm with state := x, tickRef := some 0, frame0 := some 0 } }
    let a := advance s 3203
    works a = true ∧ a.frm.tickRef = some 0 ∧ 0 + period a + 2 < 3203 ∧ (endFrame a).frm.state = x := by decide +kernel

theorem witness_self_timed :
    let s : State := { up with frm := { up.frm with frame0 := some 0 } }
    let a := advance s 3200
    let w : State := { s with pwr := { s.pwr with wrst := true } }
    a.frm.frame0 = some 0 ∧ 0 + period a ≤ 3200 ∧ works a = true ∧ a.frm.tickRef = none ∧
      works (advance w 3200) = false ∧ (advance w 3200).pwr.porst = false ∧ (advance w 3200).pwr.logic = true ∧
      (advance w 3200).frm.frame0 = some 0 := by decide +kernel

/-- The other half is being validated since sclk 0: a program of no entries, and none at all. -/
def validating : State := { half .validating with frm := { (half .validating).frm with valAt := some (0, true) } }

theorem witness_validation : works (advance validating 4000) = true ∧ (advance validating 4000).frm.valAt = some (0, true) ∧
    0 + (validate (venvOf (advance validating 4000) true) (entryOf (advance validating 4000).frm.mem (otherHalf (advance validating 4000)))).sclk ≤ 4000 := by
  decide +kernel

theorem witness_barrier_timeout :
    let s := prog [9 + 200 * 2 ^ 8 + 7 * 2 ^ 64 + 99 * 2 ^ 96]
    let w : State := { s with frm := { s.frm with barriers := [(1, 7, 299)], progress := [(1, 0)] } }
    let a := advance w 300
    works a = true ∧ a.frm.barriers.find? (fun b => b.1 == 1) = some (1, 7, 299) ∧ (catchUp a 300).frm.barriers.contains (1, 7, 299) = true := by
  decide +kernel

/-! ### Witnesses: events inside the slice -/

/-- A region table commit is being checked since sclk 0; its shadow table is empty, or its entry 1 ends before it begins. -/
def rgnChecking : State := { rgnPending with rgn := { rgnPending.rgn with checking := true } }
@[inherit_doc rgnChecking] def rgnBad : State := regs rgnChecking [(rk 0x02 0x108, 0x80000005#32)]

theorem witness_region_checks : works (advance rgnChecking 70) = true ∧
    (let s := { rgnChecking with now := 70 }
     s.rgn.checking = true ∧ s.rgn.cancelAt = none ∧ s.rgn.fault = none ∧ s.rgn.checked = 0 ∧ s.ras.upsets = [] ∧
       (rgnCheckTo s 70).rgn.fault = none ∧ rgnChecks (rgnCheckTo s 70) ≤ (rgnCheckTo s 70).rgn.checked ∧ rgnCheckedAt (rgnCheckTo s 70) ≤ 70) ∧
    (let s := { rgnBad with now := 70 }
     s.rgn.checking = true ∧ s.rgn.cancelAt = none ∧ (rgnCheckTo s 70).rgn.fault = some (2, 1, 1, 0, 0)) := by decide +kernel

/-- The same for a sparing commit: shadow entry 1 of tier 0 repeats the row of entry 0. -/
def sprChecking : State := { sprPending with spr := { sprPending.spr with checking := true, armed := some ⟨0, [], [], 0, none⟩ } }
@[inherit_doc sprChecking] def sprBad : State := { sprChecking with
  spr := { sprChecking.spr with armed := some ⟨0, [(0, 0x80000001#32), (1, 0x80004001#32)], [], 0, none⟩ } }

theorem witness_sparing_checks : works (advance sprChecking 700) = true ∧
    (let s := { sprChecking with now := 700 }
     s.spr.checking = true ∧ s.spr.cancelAt = none ∧ s.spr.armed = some ⟨0, [], [], 0, none⟩ ∧ (sprChkTo s 700 ⟨0, [], [], 0, none⟩).fault = none) ∧
    (let s := { sprBad with now := 700 }
     s.spr.checking = true ∧ s.spr.cancelAt = none ∧
       (s.spr.armed.bind fun k => (sprChkTo s 700 k).fault.map fun f => (f.1, f.2.1, f.2.2.1, f.2.2.2.1)) = some (2, 1, 0, 1)) := by decide +kernel

theorem witness_initializations :
    let s : State := { up with acc := State.reset.acc, cch := State.reset.cch, dir := State.reset.dir, thl := { up.thl with initDue := true } }
    let a := advance s 512
    works a = true ∧ a.acc.initAt = some 0 ∧ a.cch.initAt = some 0 ∧ a.dir.initAt = some 0 ∧ a.dir.ents = [] ∧ a.dir.txns = [] ∧ a.thl.initDue = true ∧
      a.thl.initAt = none ∧ tiersUp a = true := by decide +kernel

theorem witness_lines_written :
    let s : State := { up with thl := { up.thl with initAt := some 0 } }
    let a := advance s 1048576
    works a = true ∧ a.thl.initAt = some 0 ∧ 1048576 ≤ initSclk a 0 ∧ (∀ i, i < 10 → tierFailed a i = false) ∧ a.spr.camAct = [] ∧
      a.spr.serves = false ∧ a.spr.rebuild = .idle := by decide +kernel

theorem witness_guard_and_rounds :
    let s : State := { up with frm := { up.frm with frame0 := some 0 } }
    (let a := advance s 3136
     works a = true ∧ a.frm.frame0 = some 0 ∧ 0 + period a ≤ 3136 + 64 ∧ a.frm.haltAt = none ∧ a.pwr.porst = false ∧ a.thl.passHeld = none ∧
       a.thl.rounds = 0 ∧ windowRounds a = 1 ∧ 0 + framePre a + 96 * (a.thl.rounds + 1) ≤ 3136) ∧
    (let a := advance { s with frm := { s.frm with haltAt := some 5 } } 3136
     works a = true ∧ a.frm.frame0 = some 0 ∧ a.frm.haltAt.isSome = true) := by decide +kernel

theorem witness_refresh_limits : logicRuns (advance up 44800000) = true ∧ (advance up 44800000).thl.catchup = false ∧
    tRet (advance up 44800000) * 7 / 8 ≤ passTime (advance up 44800000) ∧ failed (advance up 51200000) = false ∧
    tRet (advance up 51200000) ≤ passTime (advance up 51200000) := by decide +kernel

/-- A request of `h` in entry 0 since sclk 0, in a phase. -/
def entry0 (s : State) (q : CPacket) (ph : Phase) : State := { s with fab := { s.fab with
  reqs := [(0, { head := q.head, payload := q.payload, vc := 0, arrived := 0, progress := 0, phase := ph })] } }

/-- It waits for a way, blocked, or for its engine. -/
theorem witness_waits_time_out : (∀ ph ∈ [Phase.waitWay 0, .waitWb 0, .waitEng 0],
    let a := advance (entry0 open_ (withOp (core 2 0x100 0 1) 0x10) ph) 16000
    works a = true ∧ wordsSound a ∧ (getReq a 0).map (·.phase) = some ph ∧ 0 + waitLimit a 0 ≤ 16000 ∧ getTxn a 0 = none) ∧
    (let a := advance (entry0 { open_ with dir := { open_.dir with blocked := [0] } } (withOp (core 2 0x10000 0 0) 0x01) (.blocked 0)) 4800
     (getReq a 0).map (·.phase) = some (.blocked 0) ∧ 0 + blockLimit a 0 ≤ 4800 ∧ getTxn a 0 = none) ∧
    (∀ ph ∈ [Phase.waitWay 0, .waitWb 0, .waitEng 0],
      let x := txn 3 0x40 false none
      let s := entry0 open_ (withOp (core 2 0x10000 0 1) 0x10) ph
      let a := advance { s with dir := { s.dir with txns := [(0, x)] } } 16000
      (getReq a 0).map (·.phase) = some ph ∧ 0 + waitLimit a 0 ≤ 16000 ∧ getTxn a 0 = some x ∧ x.ack = none) ∧
    (let a := advance (entry0 open_ (withOp (core 2 0x10000 0 0) 0x01) .home) 60000
     (getReq a 0).map (·.progress) = some 0 ∧ 0 + stallLimit a 0 ≤ 60000) := by
  unfold wordsSound; decide +kernel

theorem witness_retries :
    (let a := advance (entry0 open_ (withOp (core 2 0x100 0 1) 0x10) (.waitEng 0)) 50
     (getReq a 0).map (·.phase) = some (.waitEng 0) ∧ (engQueue a (bucketOwner a (bucketOf 2))).length < 8 ∧
       (engWaiters a (bucketOwner a (bucketOf 2))).head? = some 0 ∧ a.upd.queues = [] ∧ (reqLine (withOp (core 2 0x100 0 1) 0x10).head).2 = 2) ∧
    (let s := entry0 { cached with dir := { cached.dir with blocked := [0] } } (withOp (core 2 0x10000 0 0) 0x01) (.blocked 0)
     let a := advance s 50
     let h := (withOp (core 2 0x10000 0 0) 0x01).head
     (getReq a 0).map (·.head) = some h ∧ getTxn a 0 = none ∧ hOpcode h = 1 ∧ isCohRead h = false ∧ lineBusy a false 512 = false ∧
       parkedFor a false 512 = false ∧ reqLine h = (false, 512) ∧
       a.dir.blocked.find? (fun b => match getReq a b with | some q => reqLine q.head == reqLine h | none => false) = some 0 ∧
       dirFind a false 512 = none ∧ findWay a false 512 = some 3 ∧ (getWay a (cacheSet 512) 3).st = 1) := by decide +kernel

theorem witness_transaction_timeouts :
    (let a := advance (withTxn owned 0x02 (txn 4 0x40 false (some 0))) 25600
     works a = true ∧ wordsSound a ∧ getTxn a 0 = some (txn 4 0x40 false (some 0)) ∧ (getReq a 0).isSome = true ∧ a.fab.out = [] ∧ 0 + fwdLimit a 0 ≤ 25600) ∧
    (let a := advance (withTxn owned 0x02 (txn 2 0x40 true none)) 25600
     works a = true ∧ wordsSound a ∧ getTxn a 0 = some (txn 2 0x40 true none) ∧ 0 + fwdLimit a 0 ≤ 25600) := by
  unfold wordsSound; decide +kernel

/-- A writeback of line 5 of host memory in a place of the buffer, with the answer awaited or failed at sclk 0; and a fill that is a prefetch. -/
def wbOut (k : Nat) (f : Option Nat) : State := { open_ with cch := { open_.cch with wb := [(k, ⟨true, 5, Line.zero, 5, 3, 0, 0, f, f.isSome, [], 0⟩)] } }
@[inherit_doc wbOut] def prefetchWaits : State := { fillWaits with cch := { fillWaits.cch with fills := [⟨5, 3, true, some 8, 0⟩] } }

theorem witness_fills_and_writebacks :
    (∀ s ∈ [(fillWaits, false), (prefetchWaits, true)], let a := advance s.1 32000
      works a = true ∧ wordsSound a ∧ fillOf a 5 3 = some ⟨5, 3, s.2, some 8, 0⟩ ∧ 0 + cnetLimit a 0 ≤ 32000 ∧ fillWaiters a 5 3 = [] ∧
        a.dir.txns = [] ∧ (getWay a 5 3).st = 3) ∧
    (∀ k ∈ [7, 71],
      (let a := advance (wbOut k none) 32000
       works a = true ∧ (smGet a.cch.wb k).map (fun e => (e.space, e.failedAt, e.stalled, e.since)) = some (true, none, false, 0) ∧
         0 + cnetLimit a 0 ≤ 32000 ∧ 32000 < 0 + cnetLimit a 0 + 1024) ∧
      (let a := advance (wbOut k (some 0)) 1024
       works a = true ∧ (smGet a.cch.wb k).map (fun e => (e.space, e.failedAt)) = some (true, some 0) ∧ 0 + 1024 ≤ 1024 ∧ hostAgent a = some 2)) := by
  unfold wordsSound; decide +kernel

/-- The watchdog has run since sclk 0; a head of DEMAND has waited since sclk 0. -/
def dogging : State := regs up [(rk 0x09 0x070, 1#32)]
@[inherit_doc dogging] def headWaits : State :=
  let s := entry0 (open_.rgSet (rk 0x03 0x04C) 0) (withOp (core 2 0x100 0 0) 0x01) .thallus
  { s with arb := { s.arb with queue := [⟨1, .snapRead 0, 2, true, false, 0, none⟩], headAt := [(1, 0)] } }

theorem witness_watchdog_and_grants : smcOn (advance dogging 400000) = true ∧ (advance dogging 400000).rb (rk 0x09 0x070) 0 = true ∧
    limitAt (advance dogging 400000) (rk 0x09 0x06C) (advance dogging 400000).ras.wdogAt ≤ wdogCount (advance dogging 400000) ∧ works (advance dogging 400000) = true ∧
    (let a := advance headWaits 16000
     works a = true ∧ wordsSound a ∧ headOf a 1 = some ⟨1, .snapRead 0, 2, true, false, 0, none⟩ ∧ smGet a.arb.headAt 1 = some 0 ∧ 0 + waitLimit a 0 ≤ 16000 ∧
       (getReq a 0).isSome = true ∧ getTxn a 0 = none) := by
  unfold wordsSound; decide +kernel

/-- The same head while frames are timed: the decision of sclk 150 falls outside the refresh window. -/
def deciding : State := { headWaits with frm := { headWaits.frm with frame0 := some 0 } }

theorem witness_arbiter_decisions :
    (let a := advance deciding 150
     works a = true ∧ a.arb.lastDecision < 150 ∧
       ((schedOf a).bind fun c => firstFit a c (holdRuns a c) (orderedHeads a) []).map (fun x => (x.1, x.2.1.kind)) = some (1, .snapRead 0)) ∧
    (let a := advance { up with frm := { up.frm with frame0 := some 0 } } 150
     a.arb.lastDecision < 150 ∧ ((schedOf a).map fun c => (firstFit a c (holdRuns a c) (orderedHeads a) []).isNone) = some true) := by decide +kernel

/-- A read of line 2 is at the controller output since sclk 120, with the burst trigger off. -/
def readOut : State :=
  let s := entry0 (open_.rgSet (rk 0x03 0x04C) 0) (withOp (core 2 0x100 0 0) 0x01) .thallus
  { s with thl := { s.thl with flights := [⟨.snapRead 0, 2, none, some 100,
    some { line := Line.zero, stored := 0, epoch := 0, ue := false, ue0 := false, ue1 := false, st0 := false, st1 := false, made := 0, badTiers := [], recon := false }, none, none, 120, 100, false, none⟩] } }

theorem witness_read_complete :
    let a := advance readOut 130
    works a = true ∧ (a.thl.flights.filter (fun f => f.writeAt.isNone && f.sample.isSome && decide (f.outAt ≤ 130))).length = 1 ∧
      a.thl.flights.map (fun f => (f.kind, f.twin, f.sampleB, f.sample.isSome)) = [(.snapRead 0, none, none, true)] ∧ (getReq a 0).isSome = true ∧
      getTxn a 0 = none ∧ a.rf (rk 0x03 0x04C) 5 0 = 0 := by decide +kernel

/-- A vector waits for its grant. -/
def vectorWaits : State :=
  let s := entry0 vaccUp (withOp (core 6 0 0 2) 0x1E) .vacc
  { s with acc := { s.acc with vacc := [0] }, frm := { s.frm with frame0 := some 0 } }

theorem witness_vector_grant :
    let a := advance vectorWaits 50
    let h := (withOp (core 6 0 0 2) 0x1E).head
    a.acc.vacc = [0] ∧ (getReq a 0).map (fun r => (r.arrived, r.progress, quenchHides a r, r.head)) = some (0, 0, false, h) ∧
      ((getGroup a (vaccGroup h)).map fun g => (vaccSlots a (hSrc h) ((vaccAddsOf h (data 2) g.stats).map (·.1)) (vaccLast a g)).isSome) = some true := by
  decide +kernel

/-- Line 0 of the pull is there to be sent. -/
def pullLine : State := { pulling with dec := { pulling.dec with
  pulls := [(0, { pullOf open_ (some (actRegion open_ 2)) (withOp (stream 0x20000 4 0) 0x28).head 0 true with buf := [(0, Line.zero, 40)] })] } }

theorem witness_pull_packet :
    let a := advance pullLine 50
    works a = true ∧ wordsSound a ∧ (getReq a 0).isSome = true ∧
      (getPull a 0).map (fun p => (p.slot, p.out, p.ended, p.dropped)) = some (0, 0, false, []) ∧
      (getPull a 0).map (fun p => (p.unit, p.lines, p.sent, p.startRow)) = some (0, 4, 0, 0) ∧
      (getPull a 0).map (fun p => p.buf) = some [(0, Line.zero, 40)] ∧
      decodeTurn a 0 = true := by
  unfold wordsSound; decide +kernel

/-- An atomic is at the head of the queue of position 2. -/
def queued : State :=
  let s := entry0 open_ (withOp (core 2 0x100 0 1) 0x10) .engine
  { s with upd := { s.upd with queues := [(2, [0])] }
           fab := { s.fab with reqs := s.fab.reqs.map fun e => (e.1, { e.2 with rgn := some (actRegion open_ 0) }) } }

theorem witness_atomic_start :
    let a := advance queued 50
    works a = true ∧ 2 < nBanks a.straps.build ∧ engReady a = true ∧ bankTaken a 2 = false ∧ smGet a.upd.started 2 ≠ some 50 ∧
      engQueue a 2 = [0] ∧ (getReq a 0).map (fun r => (r.arrived, r.rgn, reqLine r.head)) = some (0, some (actRegion a 0), (false, 2)) ∧
      getTxn a 0 = none ∧ (actRegion a 0).mode = 2 ∧ a.upd.flights = [] := by decide +kernel

/-- Position 0 is idle; the queue of position 2 holds five atomics of line 2. -/
def stealable : State :=
  let r := (withOp (core 2 0x100 0 1) 0x10)
  { open_.rgFld (rk 0x06 0x040) 0 0 1 with
    fab := { open_.fab with reqs := (List.range 5).map fun i =>
      (i, { head := setFld r.head 31 24 i, payload := r.payload, vc := 0, arrived := 0, progress := 0, phase := .engine }) }
    upd := { open_.upd with queues := [(2, [0, 1, 2, 3, 4])] } }

theorem witness_steal :
    let a := advance stealable 50
    let nb := nBanks a.straps.build
    let most := (List.range nb).foldl (fun m q => max m (engQueue a q).length) 0
    works a = true ∧ 0 < nb ∧ a.rb (rk 0x06 0x040) 0 = true ∧ a.upd.stolen ≠ some 50 ∧
      (List.range nb).find? (fun q => (engQueue a q).isEmpty && (posFlights a q).isEmpty) = some 0 ∧ a.rf (rk 0x06 0x040) 5 2 ≤ most ∧
      (List.range nb).find? (fun q => (engQueue a q).length == most) = some 2 ∧
      ((engQueue a 2).map fun k => match getReq a k with | some r => bucketOf (reqLine r.head).2 | none => 64).find?
        (fun y => !((posFlights a 2).map fun f => bucketOf f.line).contains y) = some 2 := by decide +kernel

/-- The scrubber is on, with every tier awake or with T3 asleep. -/
def scrubbing (asleep : Bool) : State :=
  let s := regs up [(rk 0x09 0x074, 0x401#32)]
  { s with frm := { s.frm with frame0 := some 0 }
           pwr := { s.pwr with tiers := if asleep then (s.pwr.tiers.set 3 (TierSt.rest .sleep false)) else s.pwr.tiers } }

theorem witness_scrub :
    (let a := advance (scrubbing true) 150
     works a = true ∧ a.rb (rk 0x09 0x074) 0 = true ∧ initBusy a = false ∧ a.ras.scrubs < a.rf (rk 0x09 0x074) 11 4 ∧
       (thallusAwake a && t9Awake a) = false) ∧
    (let a := advance (scrubbing false) 150
     let x := a.rgFld (rk 0x09 0x078) 20 20 0
     (thallusAwake a && t9Awake a) = true ∧ inShadow x (lineOfLap (a.rf (rk 0x09 0x078) 19 0)) = false ∧
       ((schedOf x).map fun c => (firstFit x c (holdRuns x c) (orderedHeads x) []).isNone) = some true ∧
       ((schedOf x).map fun c => ((planOf x c ⟨10, .scrub, lineOfLap (a.rf (rk 0x09 0x078) 19 0), true, false, 150, mirrorTwin x (lineOfLap (a.rf (rk 0x09 0x078) 19 0))⟩ 151).map fun p =>
         (planFree x c p ((holdRuns x c).flatMap (·.2)) && planPaid x c p))) = some (some true)) := by decide +kernel

theorem witness_patrol_leaks_wraps :
    (let a := advance (regs up [(rk 0x09 0x088, 3#32)]) 1024
     works a = true ∧ a.ras.upsets = [] ∧ a.ras.engUpsets = [] ∧ a.rb kInj 7 = false ∧ a.rb (rk 0x09 0x088) 0 = true ∧ a.ras.patrolAt + a.rf (rk 0x09 0x088) 8 1 * 1024 ≤ 1024) ∧
    (let a := advance up 67108864
     37 < nDomains a.straps.build ∧ 0 < (67108864 - leakStart a 37) / leakPeriod a 37) ∧ 2 ^ 48 ≤ pmuVal (advance up 0) 7 + 2 ^ 48 := by
  decide +kernel

/-! ### Witnesses: resets, wakes, Torif -/

/-- PORST_N or WRST_N is asserted, a reset is ordered, a domain switches, a tier is on its way. -/
def porst : State := { up with pwr := { up.pwr with porst := true, logic := false } }
@[inherit_doc porst] def wrst : State := { up with pwr := { up.pwr with wrst := true } }
@[inherit_doc porst] def ordered (k : ResetKind) : State := { up with pwr := { up.pwr with ordered := some (k, 24, 40, true) } }
@[inherit_doc porst] def switching_ (e m : DomState) : State := { up with pwr := { up.pwr with eng := e, smc := m } }
@[inherit_doc porst] def moving (st : TState) : State := { up with pwr := { up.pwr with
  tiers := up.pwr.tiers.set 4 { TierSt.rest st false with start := 0, tmo := 16000 } } }
@[inherit_doc porst] def toWake (token : Bool) : State := { up with
  straps := { up.straps with tokenEn := token }, pwr := { up.pwr with queue := [9], tiers := up.pwr.tiers.set 9 (TierSt.rest .queued false) } }

theorem witness_resets : (advance porst 50).pwr.porst = true ∧ (advance porst 50).pwr.ordered = none ∧ (advance up 50).pwr.porst = false ∧
    (advance up 50).straps.fused = false ∧ (advance up 50).pwr.wrst = false ∧ (advance up 50).pwr.logic = true ∧ fsClass (lastWrites (advance up 50)) ≠ 1 ∧
    (advance wrst 50).pwr.wrst = true ∧ (advance wrst 50).pwr.ordered = none ∧ (advance wrst 50).pwr.porst = false ∧
    (∀ k ∈ [ResetKind.cold, .warm, .frame, .smc], (advance (ordered k) 50).pwr.ordered = some (k, 24, 40, true)) := by decide +kernel

theorem witness_switches : (advance (switching_ (.rising 40) (.falling 30)) 50).pwr.eng = .rising 40 ∧
    (advance (switching_ (.rising 40) (.falling 30)) 50).pwr.smc = .falling 30 ∧ (advance (switching_ (.falling 40) (.rising 30)) 50).pwr.eng = .falling 40 ∧
    (advance (switching_ (.falling 40) (.rising 30)) 50).pwr.smc = .rising 30 := by decide +kernel

theorem witness_tiers : (advance (moving .waking) 50).pwr.tiers.length = 10 ∧ (tier (advance (moving .waking) 50) 4).st = .waking ∧
    (tier (advance (moving .waking) 50) 4).start < 50 ∧ 50 < (tier (advance (moving .waking) 50) 4).start + (tier (advance (moving .waking) 50) 4).tmo ∧
    (tier (advance (moving .waking) 16000) 4).start + (tier (advance (moving .waking) 16000) 4).tmo ≤ 16000 ∧
    tierFailed (advance (moving .waking) 16000) 4 = false ∧ (tier (advance (moving .entering) 50) 4).st = .entering ∧
    (advance (moving .entering) 50).thl.flights = [] := by decide +kernel

theorem witness_wakes : (advance (toWake false) 50).straps.tokenEn = false ∧ (advance (toWake false) 50).pwr.queue = [9] ∧
    (advance (toWake false) 50).pwr.lastStart = none ∧ (advance (toWake true) 50).straps.tokenEn = true ∧ (advance (toWake true) 50).pwr.tokens = 0 ∧
    (advance (toWake true) 50).pwr.req = none ∧ (advance asking 4096).pwr.req = some (2, 0, 0, false) ∧ (advance asking 4096).pwr.queue ≠ [] ∧
    0 + (advance asking 4096).rf (rk 0x0B 0x058) 7 0 * 1024 ≤ 4096 := by decide +kernel

/-- A message to Torif: SVC, LEN and a payload word. -/
def msg (svc n : Nat) (ws : List Word) : MbxMsg :=
  { words := ((BitVec.ofNat 32 (n + 0x100 * (ws.length) + svc * 2 ^ 16)) :: ws).zipIdx.map fun x => (x.2, x.1), src := (0, 4, 0), total := ws.length + 1
    bad := false, replied := false }
@[inherit_doc msg] def popped (secure : Bool) (m : MbxMsg) : State := setMbx up secure { MbxCh.empty with popped := [m], agreed := true }

theorem witness_torif_queues : ∀ secure ∈ [false, true],
    let a := advance (setMbx up secure { MbxCh.empty with inMsgs := [msg 2 7 [5#32]], lock := some (2 ^ 31 + 5, 0) }) 70000
    works a = true ∧ smcRuns a = true ∧ wordsSound a ∧ (mbx a secure).inMsgs = [msg 2 7 [5#32]] ∧ torifKnows (mbxSvc (msg 2 7 [5#32])) = true ∧ (mbx a secure).popped = [] ∧
      (mbx a secure).lock = some (2 ^ 31 + 5, 0) ∧ fld 0x107#32 10 8 = [5#32].length ∧ outWords (mbx a secure) + 1 + 1 ≤ 8 ∧ (mbx a secure).outPart = none ∧
      fld 0x107#32 15 11 = 0 ∧ fld 0x807#32 15 11 ≠ 0 := by
  unfold wordsSound; decide +kernel

/-- The SMC has pushed the header of an outbound message of two words. -/
def pushing (secure : Bool) : State := setMbx up secure { MbxCh.empty with
  outPart := some { words := [(0, 0x109#32)], src := (9, 0, 0), total := 2, bad := false, replied := false }, outWr := 1 }

theorem witness_outbound_pushes : ∀ secure ∈ [false, true], works (advance (pushing secure) 50) = true ∧ smcRuns (advance (pushing secure) 50) = true ∧
    (mbx (advance (pushing secure) 50) secure).outPart.isSome = true ∧
    (mbx (advance (setMbx up secure { MbxCh.empty with inMsgs := [] }) 50) secure).inMsgs = [] := by decide +kernel

theorem witness_lock_expiry : ∀ secure ∈ [false, true],
    let s := setMbx (up.rgSet (rk (mbxPage secure) 0x044) 0x0101#32) secure { MbxCh.empty with lock := some (2 ^ 31 + 5, 0) }
    let a := advance s 1024
    works a = true ∧ (mbx a secure).lock = some (2 ^ 31 + 5, 0) ∧ a.rf (rk (mbxPage secure) 0x044) 23 8 = 1 := by decide +kernel

theorem witness_torif_services : ∀ secure ∈ [false, true], ∀ m ∈ [msg 1 7 [1#32], msg 2 7 [5#32], msg 0x10 7 [0x00000000#32, 2#32]],
    let a := advance (popped secure m) 50
    works a = true ∧ smcRuns a = true ∧ wordsSound a ∧ torifNext (mbx a secure) = some m ∧ m.bad = false ∧ (mbx a secure).outPart = none ∧
      storedReply (mbx a secure) m = none ∧ (mbx a secure).popped.find? (fun x => !x.acked) = some m ∧
      (mbx a secure).agreed = true ∧ outWords (mbx a secure) + 4 ≤ 8 := by
  unfold wordsSound; decide +kernel

/-- The reply to SEQ 7 is kept, and a message of that SEQ is popped again. -/
theorem witness_kept_reply : ∀ secure ∈ [false, true], ∀ m ∈ [msg 1 7 [1#32], msg 2 7 [5#32], msg 0x10 7 [0x00000000#32, 2#32]],
    let a := advance (setMbx up secure { MbxCh.empty with popped := [m], agreed := true, lastReply := some (7, 0x8002, [0x07000000#32, 5#32]) }) 50
    wordsSound a ∧ torifNext (mbx a secure) = some m ∧ storedReply (mbx a secure) m = some (0x8002, [0x07000000#32, 5#32]) ∧
      (mbx a secure).outPart = none ∧ outWords (mbx a secure) + 2 + 1 ≤ 8 := by
  unfold wordsSound; decide +kernel

theorem witness_torif_messages : mbxSvc (msg 1 7 [1#32]) = 1 ∧ (msg 1 7 [1#32]).total = 2 ∧ fld (mbxWord (msg 1 7 [1#32]) 0) 7 0 ≠ 0 ∧
    mbxSvc (msg 2 7 [5#32]) = 2 ∧ (msg 2 7 [5#32]).total = 2 ∧ mbxSvc (msg 0x10 7 [0#32, 2#32]) = 0x10 ∧ (msg 0x10 7 [0#32, 2#32]).total = 3 := by decide +kernel

/-- A FRAME_COPY of channel `secure` waits for Torif, with this one under way and the other half in this state. -/
def copying (secure : Bool) (cp : Option CopySt) (x : HalfSt) : State :=
  let s := popped secure (msg 0x10 7 [0x400#32, 2#32])
  { s with frm := { s.frm with copy := cp, inact := x } }

theorem witness_frame_copy : ∀ secure ∈ [false, true], ∀ r ∈ [(none, HalfSt.empty), (none, .validating),
      (some ⟨!secure, 0, some 0, false⟩, .opened), (some ⟨secure, 16, none, false⟩, .opened), (some ⟨secure, 16, some 7, false⟩, .opened),
      (some ⟨secure, 0, some 1, false⟩, .opened), (some ⟨secure, 0, some 0, true⟩, .validating), (some ⟨secure, 0, some 0, true⟩, .pending)],
    let a := advance (copying secure r.1 r.2) 50
    works a = true ∧ smcRuns a = true ∧ wordsSound a ∧ a.frm.copy = r.1 ∧ a.frm.inact = r.2 ∧ (torifNext (mbx a secure)).isSome = true ∧
      (mbx a secure).outPart = none ∧ (mbx a secure).lastReply = none ∧ outWords (mbx a secure) + 3 ≤ 8 := by
  unfold wordsSound; decide +kernel

/-- The records call for row 5 of bank 4 of T3 and for cache way 5; with `full`, the eight spare rows of the bank are used. -/
def recorded (full : Bool) : State :=
  let s := regs up [(rk 0x0A 0x064, 0x10202#32), (rk 0x0A 0x078, 0x80021005#32), (rk 0x09 0x11C, 0x80000000#32),
    (rk 0x0A 0x0D8, 0x80020A00#32), (rk 0x09 0x164, 0x80020000#32)]
  if full then { s with spr := { s.spr with camShd := (List.range 8).map fun n => (3 * 64 + n, BitVec.ofNat 32 (0x80001000 + n * 16384)) } } else s

theorem witness_torif_retires :
    (let a := advance (recorded false) 50
     works a = true ∧ smcRuns a = true ∧ badRow a 3 = some (4, 5) ∧ freeSorus a 3 4 = some (0, 0) ∧ a.spr.pending = false ∧
       badWay a 0x0D8 [12, 13] = some 5) ∧
    (let a := advance (recorded true) 50
     badRow a 3 = some (4, 5) ∧ freeSorus a 3 4 = none ∧ a.rb (rk 0x0A 0x064) 16 = true ∧ t9Free a = true ∧ tierFailed a 3 = false) := by
  decide +kernel

/-- Records of engine 2, of directory way 3, of ingress lane 9; T3 has failed; and Torif takes cache way 5 out of use. -/
def called (spares : Bool) : State :=
  let s := regs up [(rk 0x0A 0x064, 0x00021111#32), (rk 0x09 (0x104 + 8 * 22), 0x80010000#32), (rk 0x0A 0x0D4, 0x80010600#32),
    (rk 0x09 (0x104 + 8 * 14), 0x80010000#32), (rk 0x0A 0x068, 0x80010009#32), (rk 0x03 0x048, 8#32)]
  if spares then s else { s with spr := { s.spr with laneShd := (List.range 8).map fun n => (n, 0x80018002#32) } }
@[inherit_doc called] def wayLeaves (set : Nat) (out : Bool) : State := { up with spr := { up.spr with wayOut := some (5, set, out) } }

theorem witness_torif_calls :
    (let a := advance (called true) 50
     works a = true ∧ smcRuns a = true ∧ tierFailed a 3 = true ∧ a.rb (rk 0x0A 0x064) 17 = true ∧ t9Free a = true ∧ rebuildMay a 3 = true ∧
       ovfReached a (20 + 2) (policy a 7 4) = true ∧ engOn a = true ∧ a.upd.mapAt = none ∧
       ((List.range (nEngines up.straps.build)).find? fun q => !((List.range (nBanks up.straps.build)).map (actEng a)).contains q &&
         !a.rb (rk 0x06 0x068) q && q != 2) = some 16 ∧
       badWay a 0x0D4 [14] = some 3 ∧ popCount 9 (a.rf (rk 0x05 0x054) 8 0 ||| 2 ^ 3) ≤ 5 ∧ bit (a.rg (rk 0x0A 0x068)) 31 = true ∧
       policy a 15 12 ≠ 0 ∧ policy a 15 12 ≤ fld (a.rg (rk 0x0A 0x068)) 23 16 ∧ freeSpare a 15 = some 0 ∧ freeSpare a 31 = some 0 ∧
       a.spr.pending = false ∧ a.spr.wayOut = none ∧ retireNames up.straps.build (.egressLane 1087) = true) ∧
    (let a := advance (called false) 50
     freeSpare a 15 = none ∧ freeSpare a 31 = none) ∧ policy (advance (up.rgSet (rk 0x0A 0x064) 0#32) 50) 15 12 = 0 ∧
    (advance (wayLeaves 511 false) 50).spr.wayOut = some (5, 511, false) ∧ (advance (wayLeaves 512 false) 50).spr.wayOut = some (5, 512, false) ∧
    (advance (wayLeaves 0 true) 50).spr.wayOut = some (5, 0, true) := by decide +kernel

end Sys2Proof.Tests
end

section
/-!
Proofs of O28 (13 R366-R373; 18 R474): what a slice that enters fail-stop holds, what its error records keep, and the writes of
`RAS.FS_CTL` and `RAS.INJ` that come to it.
-/

namespace Sys2Proof.Machine

/-! ### Register rows with action bits -/

/-- What the header of a register row with action bits names. -/
theorem actOf_names (p : CPacket) (g o : Nat) (on off : List Nat) (hon : ∀ b ∈ on, b < 32) (hoff : ∀ b ∈ off, b < 32) (hg : g < 32)
    (ho : o < 4096) : hOpcode (actOf p g o on off).head = 0x31 ∧ rPage (actOf p g o on off).head = g ∧ rOfs (actOf p g o on off).head = o :=
  ⟨hOpcode_actOf p g o on off hon hoff, rPage_actOf p g o on off hon hoff hg ho, rOfs_actOf p g o on off hon hoff ho⟩

/-- A field of the written word that holds no action bit is the packet's. -/
theorem fld_actOf (p : CPacket) (g o : Nat) (on off : List Nat) (hi lo : Nat) (hon : ∀ b ∈ on, b < 32) (hoff : ∀ b ∈ off, b < 32)
    (hhi : hi < 32) (hd : ∀ b, b ∈ on ∨ b ∈ off → b < lo ∨ hi < b) :
    fld (hData (actOf p g o on off).head) hi lo = fld (hData p.head) hi lo := by
  apply Nat.eq_of_testBit_eq
  intro i
  rw [testBit_fld, testBit_fld]
  by_cases hi' : i < hi + 1 - lo
  · have hout : ∀ b, b ∈ on ∨ b ∈ off → lo + i ≠ b := fun b hb => by have := hd b hb; omega
    rw [bit_actOf _ _ _ _ _ _ hon hoff (by omega), if_neg fun h => hout _ (.inr h) rfl, if_neg fun h => hout _ (.inl h) rfl]
  · simp [hi']

/-! ### Register accesses that pass the check stages -/

/-- A request that no stage of 3-10 refuses names a space its opcode may address (02 R65; 03 R88). -/
theorem spaceOk_of_refusal10 {s : State} {h : BitVec 256} {vc : Nat} (hr : refusal10 s h vc = none) :
    spaceOk (hOpcode h) (hSpace h) = true := by
  refine Decidable.byContradiction fun hs => ?_
  have hc : (checkSpace s h).isSome = true := by
    unfold checkSpace
    rw [if_pos (by simpa using hs)]
    rfl
  unfold refusal10 at hr
  cases hf : checkForm s h vc with
  | some n => simp [hf] at hr
  | none =>
    obtain ⟨n, hn⟩ := Option.isSome_iff_exists.mp hc
    simp only [hf, hn] at hr
    split at hr
    · cases hr
    · split at hr
      · cases hr
      · split at hr <;> cases hr

theorem accepted_spaceOk {s : State} {t : Nat} {p : CPacket} (ha : accepted s t p = true) :
    spaceOk (hOpcode p.head) (hSpace p.head) = true := by
  simp only [accepted, Bool.and_eq_true] at ha
  obtain ⟨⟨⟨⟨-, -⟩, hsound⟩, hnone⟩, -⟩ := ha
  have hfirst : firstRefusal (counted s t p) p.head p.vc.toNat = none := by simpa [refusal, hsound] using hnone
  unfold firstRefusal at hfirst
  cases h10 : refusal10 (dueBy (counted s t p) ((counted s t p).now + 5)) p.head p.vc.toNat with
  | some n => simp only [h10, reduceCtorEq] at hfirst
  | none => exact spaceOk_of_refusal10 h10

/-- An accepted register write addresses register space. -/
theorem accepted_write_space {s : State} {t : Nat} {p : CPacket} (ha : accepted s t p = true) (ho : hOpcode p.head = 0x31) :
    hSpace p.head = 2 := by
  have h := accepted_spaceOk ha
  simpa [spaceOk, ho] using h

/-- An accepted write of a page that fail-stop serves is answered even when it ends in fail-stop (02 R77). -/
theorem ran_write_served {s : State} {t : Nat} {q : CPacket} {r : RegAns} (ha : accepted s t q = true) (ho : hOpcode q.head = 0x31)
    (hk : orderOf (rPage q.head) (rOfs q.head) (hData q.head) = none) (hr : regWrite (atStage12 s t q) q.head = r) (hd : r.delay < 16)
    (hv : servedInFail q.head = true) : ran s (receive s t q) = .next (accessed s t q r) := by
  rw [accepted_write ha ho, hr]
  unfold answerWrite answerReg
  simp only [hv, hk]
  rw [if_neg (by simp), if_neg (by omega)]
  have hnow : max s.now (max s.now t) = max s.now t := by omega
  simp only [ite_self, markOrder_none, ran, accessed, backTo, hnow]

/-- A value that needs S is refused `NACK_SEC` to a request without it (00 R497). -/
theorem regWrite_needsS {a : State} {h : BitVec 256} (hb : badValue a.straps.build (rPage h) (rOfs h) (hData h) = false)
    (hn : needsS (rPage h) (rOfs h) (hData h) = true) (hs : hS h = false) : regWrite a h = RegAns.nack a nackSec := by
  unfold regWrite
  simp [hb, hn, hs]

/-- A register of debug mode is refused `NACK_PERM` outside it (18 R474). -/
theorem regWrite_outsideDebug {a : State} {h : BitVec 256} (hb : badValue a.straps.build (rPage h) (rOfs h) (hData h) = false)
    (hn : needsS (rPage h) (rOfs h) (hData h) = false) (h40 : 0x040 ≤ rOfs h) (hD : debugOnly (rPage h) (rOfs h) = true)
    (hm : debugMode a = false) : regWrite a h = RegAns.nack a nackPerm := by
  unfold regWrite
  simp [hb, hn, hD, hm, Nat.not_lt.mpr h40]

/-! ### What an error record keeps -/

/-- Past the sticky bit an error record touches the first-error registers, what its trace record may touch, and nothing more. -/
theorem sameRegs_logErr_pastSticky (s : State) (page b info : Nat) :
    sameRegsBut (rk page 0x018 :: traceKeys) (logSticky s page b) (logErr s page b info) := by
  have hmem : ∀ k ∈ traceKeys, k ∈ rk page 0x018 :: traceKeys := fun _ hk => List.mem_cons_of_mem _ hk
  have hcore : sameRegsBut (rk page 0x018 :: traceKeys) (logSticky s page b) (logErrCore s page b info) := by
    have hlog : sameRegsBut (rk page 0x018 :: traceKeys) (logSticky s page b)
        (logGlobal (logFirst (logSticky s page b) page b info) page b) :=
      .trans (sameRegs_logFirst _ _ _ _ (by simp)) (sameRegs_logGlobal _ _ _ (hmem _ (by decide)))
    unfold logErrCore
    simp only []
    split
    · exact .trans hlog (sameRegs_raiseInt _ _ (hmem _ (by decide)))
    · exact hlog
  unfold logErr
  simp only []
  split
  · exact hcore
  · exact .trans hcore (sameRegs_trace _ _ _ _ hmem)

/-- An error of page RAS sets its own sticky bit and leaves the others of the page. -/
theorem rb_logErr_ras_sticky (s : State) (b info i : Nat) (hi : i < 32) :
    (logErr s 0x09 b info).rb (rk 0x09 0x010) i = (s.rb (rk 0x09 0x010) i || decide (b = i)) := by
  unfold State.rb
  rw [sameRegs_logErr_pastSticky s 0x09 b info _ (by decide), logSticky, rg_rgSet_same]
  simp only [bit, BitVec.getLsbD_or, BitVec.getLsbD_ofNat, Nat.testBit_two_pow, hi, decide_true, Bool.true_and]

/-- The status of fail-stop stands through an error record of page RAS. -/
theorem rg_logErr_failStatus (s : State) (b info : Nat) : (logErr s 0x09 b info).rg (rk 0x09 0x054) = s.rg (rk 0x09 0x054) :=
  sameRegs_logErr s 0x09 b info (l := rk 0x09 0x010 :: rk 0x09 0x018 :: traceKeys) (by simp) (by simp) (by simp_all) _ (by decide)

/-! ### Entering fail-stop -/

/-- A slice that enters fail-stop, before it records the entry as an error (13 R366, R369). -/
def failEntered (s : State) (cls page b info : Nat) : State :=
  sendSnet (failUnits (failRegs s cls page b info)) 7 (s.straps.tile + cls * 256) (s.now + 2)

theorem failStop_of_running {s : State} (hf : failed s = false) (cls page b info : Nat) :
    failStop s cls page b info =
      logErr (failEntered s cls page b info) 0x09 11 (mkFld 2 0 cls + mkFld 7 3 page + mkFld 12 8 b) := by
  unfold failStop failEntered
  rw [if_neg (by simp [hf])]

/-- The fail-stop registers leave the sticky bits of page RAS. -/
theorem rg_failEntered_sticky (s : State) (cls page b info : Nat) :
    (failEntered s cls page b info).rg (rk 0x09 0x010) = s.rg (rk 0x09 0x010) := by
  change (failRegs s cls page b info).rg (rk 0x09 0x010) = _
  unfold failRegs
  rw [rg_rgSet_other _ _ _ _ (by decide), rg_rgSet_other _ _ _ _ (by decide), rg_rgSet_other _ _ _ _ (by decide)]

theorem rg_failEntered_status (s : State) (cls page b info : Nat) : (failEntered s cls page b info).rg (rk 0x09 0x054) =
    BitVec.ofNat 32 (1 + mkFld 3 1 cls + mkFld 11 4 (min (fld (s.rg (rk 0x09 0x054)) 11 4 + 1) 255)) := by
  change (failRegs s cls page b info).rg (rk 0x09 0x054) = _
  unfold failRegs
  rw [rg_rgSet_other _ _ _ _ (by decide), rg_rgSet_other _ _ _ _ (by decide), rg_rgSet_same]

/-- The status word of fail-stop shows it entered, and its class. -/
theorem failStatus_fields (cls n : Nat) (hc : cls < 8) :
    bit (BitVec.ofNat 32 (1 + mkFld 3 1 cls + mkFld 11 4 n)) 0 = true ∧ fld (BitVec.ofNat 32 (1 + mkFld 3 1 cls + mkFld 11 4 n)) 3 1 = cls := by
  have hN : (BitVec.ofNat 32 (1 + mkFld 3 1 cls + mkFld 11 4 n)).toNat = 1 + cls * 2 + n % 256 * 16 := by
    simp only [mkFld, BitVec.toNat_ofNat, Nat.reduceAdd, Nat.reduceSub, Nat.reducePow]
    omega
  constructor
  · rw [bit, ← BitVec.testBit_toNat, hN, Nat.testBit_zero]
    simp only [decide_eq_true_eq]
    omega
  · simp only [fld, hN, Nat.shiftRight_eq_div_pow, Nat.reduceAdd, Nat.reduceSub, Nat.reducePow]
    omega

/-- What a slice holds once it has entered fail-stop of a class at sclk `now`: the units are stopped and empty, the class is recorded, and
the FAULT message is on its way (13 R366, R369). -/
structure FailedAt (b : State) (cls now tile : Nat) : Prop where
  fsAt : b.ras.fsAt = some now
  engine : b.frm.state = .failed
  runs : b.frm.runs = false
  reqs : b.fab.reqs = []
  queue : b.arb.queue = []
  flights : b.thl.flights = []
  entered : b.rb (rk 0x09 0x054) 0 = true
  recorded : b.rf (rk 0x09 0x054) 3 1 = cls
  fault : b.fab.sOut = [{ typ := 7, arg := tile + cls * 256, readyAt := now + 2 }]

/-- A working slice that enters fail-stop is in it. -/
theorem failedAt_failStop {s : State} (hf : failed s = false) {cls : Nat} (hc : cls < 8) (page b info : Nat) :
    FailedAt (failStop s cls page b info) cls s.now s.straps.tile := by
  rw [failStop_of_running hf]
  have hst := steady_logErr (failEntered s cls page b info) 0x09 11 (mkFld 2 0 cls + mkFld 7 3 page + mkFld 12 8 b)
  have hstatus := failStatus_fields cls (min (fld (s.rg (rk 0x09 0x054)) 11 4 + 1) 255) hc
  have hreg := (rg_logErr_failStatus (failEntered s cls page b info) 11 (mkFld 2 0 cls + mkFld 7 3 page + mkFld 12 8 b)).trans
    (rg_failEntered_status s cls page b info)
  exact
    { fsAt := hst.fsAt
      engine := congrArg FrmSt.state hst.frm
      runs := congrArg FrmSt.runs hst.frm
      reqs := hst.reqs
      queue := congrArg ArbSt.queue hst.arb
      flights := congrArg ThlSt.flights hst.thl
      entered := by rw [State.rb, hreg]; exact hstatus.1
      recorded := by rw [State.rf, hreg]; exact hstatus.2
      fault := congrArg FabricSt.sOut hst.fab }

/-- Entering fail-stop leaves the sticky bits of page RAS set. -/
theorem rb_failStop_sticky {s : State} (hf : failed s = false) (cls page b info i : Nat) (hi : i < 32)
    (hb : s.rb (rk 0x09 0x010) i = true) : (failStop s cls page b info).rb (rk 0x09 0x010) i = true := by
  rw [failStop_of_running hf, rb_logErr_ras_sticky _ _ _ _ hi, State.rb, rg_failEntered_sticky, ← State.rb, hb, Bool.true_or]

theorem failStop_straps (s : State) (cls page b info : Nat) : (failStop s cls page b info).straps = s.straps := by
  unfold failStop
  split
  · rfl
  · rw [(steady_logErr _ _ _ _).straps]; rfl

/-- FORCE takes a working slice to fail-stop of class FORCED and logs FS_FORCED (13 R371). -/
theorem forceOp_of_running {s : State} (hf : failed s = false) (h : BitVec 256) :
    FailedAt (forceOp s h) 7 s.now s.straps.tile ∧ (forceOp s h).rb (rk 0x09 0x010) 10 = true ∧ (forceOp s h).straps = s.straps := by
  have hst := steady_logErr s 0x09 10 (mkFld 9 0 (hSrcId h) + mkFld 11 10 (hSrcType h))
  unfold forceOp
  rw [if_neg (by simp [hf])]
  generalize hl : logErr s 0x09 10 (mkFld 9 0 (hSrcId h) + mkFld 11 10 (hSrcType h)) = l at hst
  have hfl : failed l = false := by rw [failed, hst.fsAt]; exact hf
  have hforced : l.rb (rk 0x09 0x010) 10 = true := by rw [← hl, rb_logErr_ras_sticky _ _ _ _ (by decide)]; simp
  refine ⟨?_, rb_failStop_sticky hfl _ _ _ _ _ (by decide) hforced, (failStop_straps _ _ _ _ _).trans hst.straps⟩
  rw [← hst.now, ← hst.straps]
  exact failedAt_failStop hfl (by decide) _ _ _

/-! ### Injections -/

/-- A bit of a register just stored: the word's where the register stores it, and cleared by a 1 where the register clears so. -/
theorem bit_storeWord (s : State) (page ofs : Nat) (d : Word) (i : Nat) (hi : i < 32) :
    bit ((storeWord s page ofs d).rg (rk page ofs)) i =
      ((if (rwMask s.straps.build page ofs).testBit i then bit d i else bit (s.rg (rk page ofs)) i) &&
        !(bit d i && (w1cMask s.straps.build page ofs).testBit i)) := by
  rw [storeWord, rg_rgSet_same]
  by_cases hm : (rwMask s.straps.build page ofs).testBit i <;>
    simp [bit, hi, hm, BitVec.getLsbD_ofNat, -BitVec.getLsbD_eq_getElem]

/-- A write of INJ with its arming bit stores the word's other bits and sets the bit (13 R373). -/
theorem injWrite_arms (s : State) {d : Word} (h7 : bit d 7 = true) : injWrite s d = (storeWord s 0x09 0x08C d).rgFld kInj 7 7 1 := if_pos h7

/-- A write that arms an injection stores its domain, its kind and the arming bit (13 R373). -/
theorem bit_injWrite (s : State) {d : Word} (h7 : bit d 7 = true) (i : Nat) (hi : i < 8) : bit ((injWrite s d).rg kInj) i = bit d i := by
  rw [injWrite_arms s h7, State.rgFld, rg_rgSet_same, bit_setFld _ _ _ _ _ (by decide) (by decide)]
  by_cases h : i = 7
  · subst h; simp [h7]
  · have hrw : (rwMask s.straps.build 0x09 0x08C).testBit i = true := by
      rw [show rwMask s.straps.build 0x09 0x08C = 2 ^ 7 - 1 by cases s.straps.build <;> rfl, Nat.testBit_two_pow_sub_one]
      exact decide_eq_true (by omega)
    have hwc : w1cMask s.straps.build 0x09 0x08C = 0 := by cases s.straps.build <;> rfl
    rw [if_neg (by omega), kInj, bit_storeWord _ _ _ _ _ (by omega), hrw, hwc]
    simp

/-- INJ written with its arming bit: the injection named is armed (13 R373). -/
theorem injArmed_injWrite (s : State) {d : Word} (h7 : bit d 7 = true) : injArmed (injWrite s d) (fld d 5 0) = true := by
  have hdom : fld ((injWrite s d).rg kInj) 5 0 = fld d 5 0 := by
    apply Nat.eq_of_testBit_eq
    intro i
    rw [testBit_fld, testBit_fld]
    by_cases hi : i < 5 + 1 - 0
    · rw [bit_injWrite s h7 _ (by omega)]
    · simp [hi]
  simp [injArmed, State.rb, State.rf, bit_injWrite s h7 7 (by decide), h7, hdom]

/-! ### The writes of FS_CTL and INJ -/

/-- The value check lets every word of FS_CTL pass, and of INJ every word that names a domain (00 R497). -/
theorem badValue_failCtl (b : Build) (d : Word) : badValue b 0x09 0x050 d = false := by
  simp [badValue, valueOk, inArr]

theorem badValue_inj (b : Build) {d : Word} (hd : fld d 5 0 < nDomains b) : badValue b 0x09 0x08C d = false := by
  simp [badValue, valueOk, inArr, hd]

/-- The row FS_FORCE sets FORCE. -/
theorem bit_force (p : CPacket) : bit (hData (actOf p 0x09 0x050 [0] []).head) 0 = true :=
  bit_actOf p 0x09 0x050 [0] [] 0 (by decide) (by decide) (by decide)

/-- FORCE of a request with S = 1 (13 R371). -/
theorem regWrite_force (a : State) {h : BitVec 256} (hg : rPage h = 0x09) (ho : rOfs h = 0x050) (hd : bit (hData h) 0 = true)
    (hs : hS h = true) : regWrite a h = RegAns.done (forceOp a h) := by
  rw [regWrite_block hg ho rfl (badValue_failCtl _ _) (.inr hs) (by decide) (by decide) rfl]
  simp [blockWrite, hd]

/-- FORCE of a request with S = 0 (13 R371). -/
theorem regWrite_force_nonsecure (a : State) {h : BitVec 256} (hg : rPage h = 0x09) (ho : rOfs h = 0x050) (hd : bit (hData h) 0 = true)
    (hs : hS h = false) : regWrite a h = RegAns.nack a nackSec :=
  regWrite_needsS (by rw [hg, ho]; exact badValue_failCtl _ _) (by rw [hg, ho]; exact hd) hs

/-- INJ in debug mode (13 R373; 18 R474). -/
theorem regWrite_inj {a : State} {h : BitVec 256} (hg : rPage h = 0x09) (ho : rOfs h = 0x08C) (hd : fld (hData h) 5 0 < nDomains a.straps.build)
    (hm : debugMode a = true) : regWrite a h = RegAns.done (injWrite a (hData h)) := by
  have hb : badValue a.straps.build (rPage h) (rOfs h) (hData h) = false := by rw [hg, ho]; exact badValue_inj _ hd
  unfold regWrite
  simp only [hb, hm]
  simp [hg, ho, needsS, blockWrite]

/-- INJ outside debug mode (18 R474). -/
theorem regWrite_inj_outsideDebug {a : State} {h : BitVec 256} (hg : rPage h = 0x09) (ho : rOfs h = 0x08C)
    (hd : fld (hData h) 5 0 < nDomains a.straps.build) (hm : debugMode a = false) : regWrite a h = RegAns.nack a nackPerm :=
  regWrite_outsideDebug (by rw [hg, ho]; exact badValue_inj _ hd) (by rw [hg, ho]; rfl) (by rw [ho]; decide) (by rw [hg, ho]; rfl) hm

/-- An accepted write that its register refuses with `code` is answered so and does nothing else. -/
theorem done_nack {s : State} {t : Nat} {q : CPacket} {code : Nat} (ha : accepted s t q = true) (ho : hOpcode q.head = 0x31)
    (hk : orderOf (rPage q.head) (rOfs q.head) (hData q.head) = none)
    (hr : regWrite (atStage12 s t q) q.head = RegAns.nack (atStage12 s t q) code) (hc : code < 16) :
    ∃ b, ran s (receive s t q) = .next b ∧ Done s t q code [] (atStage12 s t q) b := by
  obtain ⟨b, hb, hdone, -⟩ := done_write ha rfl ho hk hr hc rfl (.refl [] _) (.refl _) rfl rfl
  exact ⟨b, hb, hdone⟩

/-- No write of page RAS orders anything for later. -/
theorem orderOf_ras (o : Nat) (d : Word) : orderOf 0x09 o d = none := by simp [orderOf]

/-- An accepted FORCE with S = 1 on a working slice. -/
theorem force_accepted {s : State} {t : Nat} {q : CPacket} (ha : accepted s t q = true) (ho : hOpcode q.head = 0x31)
    (hg : rPage q.head = 0x09) (hofs : rOfs q.head = 0x050) (hd : bit (hData q.head) 0 = true) (hs : hS q.head = true) :
    ∃ b, ran s (receive s t q) = .next b ∧ Answered b q ok 0 (max s.now t + 8) ∧ FailedAt b 7 (max s.now t + 7) s.straps.tile ∧
      b.rb (rk 0x09 0x010) 10 = true := by
  obtain ⟨hfailed, hlogged, hstraps⟩ := forceOp_of_running (accepted_runs ha) q.head
  rw [atStage12_straps] at hstraps
  rw [atStage12_now, atStage12_straps] at hfailed
  have hserved : servedInFail q.head = true := by simp [servedInFail, ho, hg, accepted_write_space ha ho]
  have hr := regWrite_force (atStage12 s t q) hg hofs hd hs
  have hrg := accessed_rg (t := t) (q := q) (r := RegAns.done (forceOp (atStage12 s t q) q.head)) hstraps
  refine ⟨_, ran_write_served ha ho (by rw [hg]; exact orderOf_ras _ _) hr (show 8 < 16 by decide) hserved,
    accessed_answered _ _ _ _ (show ok < 16 by decide), ?_, ?_⟩
  · exact { hfailed with
      entered := by rw [State.rb, hrg]; exact hfailed.entered
      recorded := by rw [State.rf, hrg]; exact hfailed.recorded }
  · rw [State.rb, hrg]; exact hlogged

/-- An accepted write of INJ that arms, in debug mode. -/
theorem inj_accepted {s : State} {t : Nat} {q : CPacket} (ha : accepted s t q = true) (ho : hOpcode q.head = 0x31)
    (hg : rPage q.head = 0x09) (hofs : rOfs q.head = 0x08C) (h7 : bit (hData q.head) 7 = true)
    (hd : fld (hData q.head) 5 0 < nDomains s.straps.build) (hm : debugMode (atStage12 s t q) = true) :
    ∃ b, ran s (receive s t q) = .next b ∧ Done s t q ok [kInj] (atStage12 s t q) b ∧
      injArmed b (fld (hData q.head) 5 0) = true ∧ b.rb kInj 6 = bit (hData q.head) 6 := by
  have hr := regWrite_inj hg hofs (by rwa [atStage12_straps]) hm
  rw [injWrite_arms _ h7] at hr
  obtain ⟨b, hb, hdone, hrg, -⟩ := done_write ha rfl ho (by rw [hg]; exact orderOf_ras _ _) hr (show ok < 16 by decide) rfl
    (.trans (sameRegs_rgSet _ _ _ (List.mem_singleton.mpr rfl)) (sameRegs_rgFld _ _ _ _ _ (List.mem_singleton.mpr rfl)))
    ((sameUnits_storeWord _ _ _ _).trans (sameUnits_rgFld _ _ _ _ _)) rfl rfl
  rw [← injWrite_arms _ h7] at hrg
  refine ⟨b, hb, hdone, ?_, ?_⟩
  · rw [injArmed, State.rb, State.rf, hrg]; exact injArmed_injWrite _ h7
  · rw [State.rb, hrg]; exact bit_injWrite _ h7 6 (by decide)

/-- Settles O28: a request with S = 1 forces fail-stop, one without S is refused, and INJ arms in debug mode alone. -/
theorem forcedFailStopAndInjections : Obligations.ForcedFailStopAndInjections := by
  unfold Obligations.ForcedFailStopAndInjections
  refine ⟨fun s t p => ?force, fun s t p => ?refused, fun s t p => ?inj⟩
  case force =>
    intro q a ha hs _
    obtain ⟨ho, hg, hofs⟩ := actOf_names p 0x09 0x050 [0] [] (by decide) (by decide) (by decide) (by decide)
    obtain ⟨b, hb, hans, hfail, hlogged⟩ := force_accepted ha ho hg hofs (bit_force p) hs
    exact ⟨b, hb, hans, hfail.fsAt, hfail.engine, hfail.runs, hfail.reqs, hfail.queue, hfail.flights, hfail.entered, hfail.recorded,
      hlogged, hfail.fault⟩
  case refused =>
    intro q a ha hs
    obtain ⟨ho, hg, hofs⟩ := actOf_names p 0x09 0x050 [0] [] (by decide) (by decide) (by decide) (by decide)
    exact done_nack ha ho (by rw [hg]; exact orderOf_ras _ _) (regWrite_force_nonsecure a hg hofs (bit_force p) hs) (by decide)
  case inj =>
    intro q a ha hd
    obtain ⟨ho, hg, hofs⟩ := actOf_names p 0x09 0x08C [7] [] (by decide) (by decide) (by decide) (by decide)
    have hdom : fld (hData q.head) 5 0 = fld (hData p.head) 5 0 :=
      fld_actOf p 0x09 0x08C [7] [] 5 0 (by decide) (by decide) (by decide) (by simp)
    have h6 : bit (hData q.head) 6 = bit (hData p.head) 6 := bit_actOf p 0x09 0x08C [7] [] 6 (by decide) (by decide) (by decide)
    have h7 : bit (hData q.head) 7 = true := bit_actOf p 0x09 0x08C [7] [] 7 (by decide) (by decide) (by decide)
    rw [← hdom] at hd
    by_cases hm : debugMode a = true
    · obtain ⟨b, hb, hdone, harmed, hkind⟩ := inj_accepted ha ho hg hofs h7 hd hm
      exact ⟨b, hb, by rw [if_pos hm]; exact ⟨hdone, hdom ▸ harmed, h6 ▸ hkind⟩⟩
    · have hr := regWrite_inj_outsideDebug (a := a) hg hofs (by rwa [atStage12_straps]) (by simpa using hm)
      obtain ⟨b, hb, hdone⟩ := done_nack ha ho (by rw [hg]; exact orderOf_ras _ _) hr (by decide)
      exact ⟨b, hb, by rw [if_neg hm]; exact hdone⟩

end Sys2Proof.Machine
end

section
/-!
Proofs of O40 (15 R407-R410): what the operations on a mailbox channel leave of the slice, the accesses of the mailbox pages that pass the
check stages, and IN_ABORT and LOCK among them.
-/

namespace Sys2Proof.Machine

/-! ### Channels -/

@[simp] theorem mbx_setMbx (s : State) (secure : Bool) (c : MbxCh) : mbx (setMbx s secure c) secure = c := by cases secure <;> rfl
@[simp] theorem setMbx_mbx (s : State) (secure : Bool) : setMbx s secure (mbx s secure) = s := by cases secure <;> rfl
@[simp] theorem setMbx_setMbx (s : State) (secure : Bool) (c d : MbxCh) : setMbx (setMbx s secure c) secure d = setMbx s secure d := by
  cases secure <;> rfl
@[simp] theorem setMbx_now (s : State) (secure : Bool) (c : MbxCh) : (setMbx s secure c).now = s.now := by cases secure <;> rfl
@[simp] theorem setMbx_straps (s : State) (secure : Bool) (c : MbxCh) : (setMbx s secure c).straps = s.straps := by cases secure <;> rfl
@[simp] theorem setMbx_regs (s : State) (secure : Bool) (c : MbxCh) : (setMbx s secure c).regs = s.regs := by cases secure <;> rfl
@[simp] theorem setMbx_ras (s : State) (secure : Bool) (c : MbxCh) : (setMbx s secure c).ras = s.ras := by cases secure <;> rfl

/-- A channel is a matter of its unit. -/
theorem mbx_congr {a b : State} (hn : b.mbn = a.mbn) (hs : b.mbs = a.mbs) (secure : Bool) : mbx b secure = mbx a secure := by
  simp [mbx, hn, hs]

theorem Recorded.mbx {a b : State} (h : Recorded a b) (secure : Bool) : Machine.mbx b secure = Machine.mbx a secure :=
  mbx_congr h.mbn h.mbs secure

/-- `b` is `a` with its channel as `c`, but for what recording changes. -/
def ChannelIs (a : State) (secure : Bool) (c : MbxCh) (b : State) : Prop := Recorded (setMbx a secure c) b

theorem ChannelIs.mbx {a b : State} {secure : Bool} {c : MbxCh} (h : ChannelIs a secure c b) : Machine.mbx b secure = c := by
  rw [Recorded.mbx h, mbx_setMbx]
theorem ChannelIs.now {a b : State} {secure : Bool} {c : MbxCh} (h : ChannelIs a secure c b) : b.now = a.now := by
  rw [Recorded.now h, setMbx_now]
theorem ChannelIs.straps {a b : State} {secure : Bool} {c : MbxCh} (h : ChannelIs a secure c b) : b.straps = a.straps := by
  rw [Recorded.straps h, setMbx_straps]
theorem ChannelIs.fsAt {a b : State} {secure : Bool} {c : MbxCh} (h : ChannelIs a secure c b) : b.ras.fsAt = a.ras.fsAt := by
  rw [Recorded.fsAt h, setMbx_ras]

/-- Replacing the channel. -/
theorem channelIs_setMbx (a : State) (secure : Bool) (c : MbxCh) : ChannelIs a secure c (setMbx a secure c) := .refl _
/-- Leaving the slice as it is. -/
theorem channelIs_self (a : State) (secure : Bool) : ChannelIs a secure (mbx a secure) a := by
  rw [ChannelIs, setMbx_mbx]; exact .refl a
/-- Recording an error. -/
theorem channelIs_logErr (a : State) (secure : Bool) (page b info : Nat) : ChannelIs a secure (mbx a secure) (logErr a page b info) := by
  rw [ChannelIs, setMbx_mbx]; exact steady_logErr _ _ _ _

/-- An error of a mailbox page sets its sticky bit. -/
theorem rb_logErr_mbx_sticky (s : State) (secure : Bool) (b info : Nat) (hb : b < 32) :
    (logErr s (mbxPage secure) b info).rb (rk (mbxPage secure) 0x010) b = true := by
  have hkey : rk (mbxPage secure) 0x010 ∉ rk (mbxPage secure) 0x018 :: traceKeys := by cases secure <;> decide
  rw [State.rb, sameRegs_logErr_pastSticky s _ b info _ hkey, logSticky, rg_rgSet_same]
  simp only [bit, BitVec.getLsbD_or, BitVec.getLsbD_ofNat, Nat.testBit_two_pow_self, hb, decide_true, Bool.and_self, Bool.or_true]

/-! ### The lock's time -/

/-- The lock of a channel after an access of the source in sclk `now` (15 R409). -/
def lockTouched (c : MbxCh) (src : Nat × Nat × Nat) (now : Nat) : Option (Nat × Nat) :=
  if ownsLock c src then some (ownerNum src, now) else c.lock

theorem touchLock_eq (s : State) (secure : Bool) (src : Nat × Nat × Nat) :
    touchLock s secure src = setMbx s secure { mbx s secure with lock := lockTouched (mbx s secure) src s.now } := by
  by_cases h : ownsLock (mbx s secure) src
  · simp only [touchLock, lockTouched, h, if_true]
  · simp only [touchLock, lockTouched, h]
    exact (setMbx_mbx s secure).symm

@[simp] theorem touchLock_straps (s : State) (secure : Bool) (src : Nat × Nat × Nat) : (touchLock s secure src).straps = s.straps := by
  rw [touchLock_eq, setMbx_straps]
@[simp] theorem touchLock_regs (s : State) (secure : Bool) (src : Nat × Nat × Nat) : (touchLock s secure src).regs = s.regs := by
  rw [touchLock_eq, setMbx_regs]
@[simp] theorem touchLock_ras (s : State) (secure : Bool) (src : Nat × Nat × Nat) : (touchLock s secure src).ras = s.ras := by
  rw [touchLock_eq, setMbx_ras]
theorem rg_touchLock (s : State) (secure : Bool) (src : Nat × Nat × Nat) (k : Nat) : (touchLock s secure src).rg k = s.rg k :=
  rg_congr (touchLock_regs s secure src) (touchLock_straps s secure src) k
theorem mbx_touchLock (s : State) (secure : Bool) (src : Nat × Nat × Nat) :
    mbx (touchLock s secure src) secure = { mbx s secure with lock := lockTouched (mbx s secure) src s.now } := by
  rw [touchLock_eq, mbx_setMbx]

/-- Only the owner's accesses move the lock's time. -/
theorem lockTouched_of_not_owner {c : MbxCh} {src : Nat × Nat × Nat} (h : ownsLock c src = false) (now : Nat) :
    lockTouched c src now = c.lock := by
  simp [lockTouched, h]

/-- The owner of a lock that is held. -/
theorem ownsLock_some {c : MbxCh} {o n : Nat} (h : c.lock = some (o, n)) (src : Nat × Nat × Nat) : ownsLock c src = decide (o = ownerNum src) := by
  simp only [ownsLock, h]; rfl
/-- A free lock has no owner. -/
theorem ownsLock_none {c : MbxCh} (h : c.lock = none) (src : Nat × Nat × Nat) : ownsLock c src = false := by
  simp only [ownsLock, h]

/-- An access leaves a held lock to its owner, whose access renews its time. -/
theorem lockTouched_some {c : MbxCh} {o n : Nat} (h : c.lock = some (o, n)) (src : Nat × Nat × Nat) (now : Nat) :
    lockTouched c src now = some (o, if o = ownerNum src then now else n) := by
  by_cases ho : o = ownerNum src <;> simp [lockTouched, ownsLock_some h, ho, h]

/-! ### Partial messages and the lock -/

/-- Discarding a partial message, where there is one, leaves the channel without one. -/
theorem channelIs_mbxDiscard (a : State) (secure : Bool) : ChannelIs a secure { mbx a secure with inPart := none } (mbxDiscard a secure) := by
  cases h : (mbx a secure).inPart with
  | none =>
    simp only [mbxDiscard, h]
    rw [← h]
    exact channelIs_self a secure
  | some m =>
    simp only [mbxDiscard, h]
    exact steady_logErr _ _ _ _

/-- A partial message that is discarded is logged (15 R410). -/
theorem rb_mbxDiscard {a : State} {secure : Bool} {m : MbxMsg} (h : (mbx a secure).inPart = some m) :
    (mbxDiscard a secure).rb (rk (mbxPage secure) 0x010) 3 = true := by
  simp only [mbxDiscard, h]
  exact rb_logErr_mbx_sticky _ _ _ _ (by decide)

theorem mbxInAbort_none {a : State} {secure : Bool} (h : (mbx a secure).inPart = none) (src : Nat × Nat × Nat) (ring : Nat) :
    mbxInAbort a secure src ring = (a, ok) := by
  simp only [mbxInAbort, h]

theorem mbxInAbort_some {a : State} {secure : Bool} {m : MbxMsg} (h : (mbx a secure).inPart = some m) (src : Nat × Nat × Nat) (ring : Nat) :
    mbxInAbort a secure src ring = if m.src = src ∨ ring = 0 then (mbxDiscard a secure, ok) else (a, nackPerm) := by
  simp only [mbxInAbort, h]

/-- A refused IN_ABORT leaves the slice as it is (15 R410). -/
theorem mbxInAbort_refused {a : State} {secure : Bool} {src : Nat × Nat × Nat} {ring : Nat} (h : (mbxInAbort a secure src ring).2 ≠ ok) :
    (mbxInAbort a secure src ring).1 = a := by
  cases hp : (mbx a secure).inPart with
  | none => rw [mbxInAbort_none hp]
  | some m =>
    rw [mbxInAbort_some hp] at h ⊢
    split
    · rename_i hmay; rw [if_pos hmay] at h; exact absurd rfl h
    · rfl

/-- Releasing the lock leaves it free; of the rest of the channel at most the partial message goes (15 R409). -/
theorem channelIs_mbxRelease (a : State) (secure : Bool) : ∃ c, c.lock = none ∧ ChannelIs a secure c (mbxRelease a secure) := by
  cases hl : (mbx a secure).lock with
  | none =>
    simp only [mbxRelease, hl]
    exact ⟨_, hl, channelIs_self a secure⟩
  | some l =>
    have hfree := channelIs_setMbx a secure { mbx a secure with lock := none }
    have hgone := channelIs_mbxDiscard (setMbx a secure { mbx a secure with lock := none }) secure
    rw [ChannelIs, setMbx_setMbx, mbx_setMbx] at hgone
    simp only [mbxRelease, hl]
    split
    · split
      · exact ⟨_, rfl, hgone⟩
      · exact ⟨_, rfl, hfree⟩
    · exact ⟨_, rfl, hfree⟩

theorem mbxLockRead_unlocked {a : State} {secure : Bool} (h : mbxLocked a secure = false) (src : Nat × Nat × Nat) :
    mbxLockRead a secure src = (a, 0) := by
  simp [mbxLockRead, h]

theorem mbxLockRead_free {a : State} {secure : Bool} (h : mbxLocked a secure = true) (hl : (mbx a secure).lock = none) (src : Nat × Nat × Nat) :
    mbxLockRead a secure src = (setMbx a secure { mbx a secure with lock := some (ownerNum src, a.now) }, 0) := by
  simp [mbxLockRead, h, hl]

theorem mbxLockRead_owned {a : State} {secure : Bool} {o n : Nat} (h : mbxLocked a secure = true) (hl : (mbx a secure).lock = some (o, n))
    (src : Nat × Nat × Nat) : mbxLockRead a secure src = (a, if o = ownerNum src then 0 else BitVec.ofNat 32 o) := by
  simp only [mbxLockRead, h, hl]
  by_cases ho : o = ownerNum src <;> simp [ho]

theorem mbxLockWrite_unlocked {a : State} {secure : Bool} (h : mbxLocked a secure = false) (src : Nat × Nat × Nat) :
    mbxLockWrite a secure src = a := by
  simp [mbxLockWrite, h]

theorem mbxLockWrite_owner {a : State} {secure : Bool} {src : Nat × Nat × Nat} (h : mbxLocked a secure = true)
    (ho : ownsLock (mbx a secure) src = true) : mbxLockWrite a secure src = mbxRelease a secure := by
  simp [mbxLockWrite, h, ho]

theorem mbxLockWrite_foreign {a : State} {secure : Bool} {src : Nat × Nat × Nat} (h : mbxLocked a secure = true)
    (ho : ownsLock (mbx a secure) src = false) : mbxLockWrite a secure src = logErr a (mbxPage secure) 2 (infoSrc src) := by
  simp [mbxLockWrite, h, ho]

/-- A channel without a partial message has all the words free that its messages do not hold (15 R400, R420). -/
theorem inFree_of_no_part {c : MbxCh} (h : c.inPart = none) : inFree c = 8 - (c.inMsgs.map fun m => m.words.length).sum := by
  simp [inFree, h, List.sum_eq_foldl]

/-! ### Accesses of the mailbox pages -/

/-- An access of a source answered with `code` and the word `w` nine sclk after its header, a refusal at eight (15 R403; 02 R66). -/
def mbxAnswer (st : State) (secure : Bool) (src : Nat × Nat × Nat) (code : Nat) (w : Word) : RegAns :=
  ⟨touchLock st secure src, code, if code = ok then 9 else 8, w⟩

/-- A write of a block register of a mailbox page. -/
theorem regWrite_mbx {a : State} {h : BitVec 256} {secure : Bool} (hg : rPage h = mbxPage secure) (h40 : 0x040 ≤ rOfs h)
    (hnotify : rOfs h ≠ 0x048) : regWrite a h = mbxWrite a h secure (hData h) := by
  have hlow : ¬ rOfs h < 0x040 := by omega
  unfold regWrite
  cases secure <;> simp only [hg, mbxPage] <;> simp [badValue, valueOk, needsS, debugOnly, hlow]

/-- A read of a block register of a mailbox page. -/
theorem regRead_mbx {a : State} {h : BitVec 256} {secure : Bool} (hg : rPage h = mbxPage secure) (h40 : 0x040 ≤ rOfs h) :
    regRead a h = readMbx a h secure := by
  have hlow : ¬ rOfs h < 0x040 := by omega
  unfold regRead
  cases secure <;> simp only [hg, mbxPage] <;> simp [debugOnly, hlow]

theorem mbxWrite_lock {a : State} {h : BitVec 256} {secure : Bool} (ho : rOfs h = 0x04C) (d : Word) :
    mbxWrite a h secure d = mbxAnswer (mbxLockWrite a secure (hSrc h)) secure (hSrc h) ok 0 := by
  simp only [mbxWrite, mbxAnswer, ho]

theorem mbxWrite_ack {a : State} {h : BitVec 256} {secure : Bool} (ho : rOfs h = 0x060) (d : Word) :
    mbxWrite a h secure d = mbxAnswer (mbxAckWrite a h secure d).1 secure (hSrc h) (mbxAckWrite a h secure d).2 0 := by
  simp only [mbxWrite, mbxAnswer, ho]

theorem readMbx_lock {a : State} {h : BitVec 256} {secure : Bool} (ho : rOfs h = 0x04C) :
    readMbx a h secure = mbxAnswer (mbxLockRead a secure (hSrc h)).1 secure (hSrc h) ok (mbxLockRead a secure (hSrc h)).2 := by
  simp only [readMbx, mbxAnswer, ho]
  rfl

/-- An ACK with IN_ABORT alone is that action (15 R410). -/
theorem mbxAckWrite_inAbort {a : State} {h : BitVec 256} {secure : Bool} {d : Word} (h1 : bit d 1 = true) (h0 : bit d 0 = false) :
    mbxAckWrite a h secure d = mbxInAbort a secure (hSrc h) (hRing h) := by
  unfold mbxAckWrite
  simp only [h1, h0]
  by_cases hc : (mbxInAbort a secure (hSrc h) (hRing h)).2 = ok
  · simp [hc, Prod.ext_iff]
  · simp [hc, Prod.ext_iff, mbxInAbort_refused hc]

/-- What an access that leaves the channel as `c`, but for its lock's time, leads to: its answer, the channel, and the registers of `st`. -/
structure MbxDone (s : State) (t : Nat) (q : CPacket) (secure : Bool) (c : MbxCh) (st : State) (code param : Nat) (b : State) : Prop where
  answered : Answered b q code param (max s.now t + if code = ok then 9 else 8)
  channel : mbx b secure = { c with lock := lockTouched c (hSrc q.head) (max s.now t + 7) }
  regs : ∀ k, b.rg k = st.rg k

/-- The state that an access of a mailbox page leads to. -/
theorem mbxDone_accessed {s st : State} {t : Nat} {q : CPacket} {secure : Bool} {c : MbxCh} {code : Nat} {w : Word} (hc : code < 16)
    (hst : ChannelIs (atStage12 s t q) secure c st) :
    MbxDone s t q secure c st code w.toNat (accessed s t q (mbxAnswer st secure (hSrc q.head) code w)) where
  answered := accessed_answered s t q (mbxAnswer st secure (hSrc q.head) code w) hc
  channel := by
    have hm : mbx (accessed s t q (mbxAnswer st secure (hSrc q.head) code w)) secure = mbx (touchLock st secure (hSrc q.head)) secure :=
      mbx_congr rfl rfl secure
    rw [hm, mbx_touchLock, hst.mbx, hst.now, atStage12_now]
  regs := fun k => by
    have hs : (touchLock st secure (hSrc q.head)).straps = s.straps := by rw [touchLock_straps, hst.straps, atStage12_straps]
    exact (accessed_rg hs k).trans (rg_touchLock st secure _ k)

/-- A channel's access leaves an accepting slice running. -/
theorem mbxAnswer_runs {s st : State} {t : Nat} {q : CPacket} {secure : Bool} {c : MbxCh} {code : Nat} {w : Word} (ha : accepted s t q = true)
    (hst : ChannelIs (atStage12 s t q) secure c st) : failed (mbxAnswer st secure (hSrc q.head) code w).st = false :=
  accepted_still ha (by rw [mbxAnswer, touchLock_ras, hst.fsAt])

theorem mbxAnswer_delay (st : State) (secure : Bool) (src : Nat × Nat × Nat) (code : Nat) (w : Word) :
    (mbxAnswer st secure src code w).delay < 16 := by
  simp only [mbxAnswer]; split <;> decide

/-- No write of a mailbox page orders anything for later. -/
theorem orderOf_mbx (secure : Bool) (o : Nat) (d : Word) : orderOf (mbxPage secure) o d = none := by cases secure <;> simp [orderOf, mbxPage]

/-- An accepted write of a mailbox page does what its register's rule says. -/
theorem mbx_write_accepted {s st : State} {t : Nat} {q : CPacket} {secure : Bool} {c : MbxCh} {code : Nat} (ha : accepted s t q = true)
    (ho : hOpcode q.head = 0x31) (hg : rPage q.head = mbxPage secure) (h40 : 0x040 ≤ rOfs q.head) (hnotify : rOfs q.head ≠ 0x048)
    (hw : mbxWrite (atStage12 s t q) q.head secure (hData q.head) = mbxAnswer st secure (hSrc q.head) code 0) (hc : code < 16)
    (hst : ChannelIs (atStage12 s t q) secure c st) :
    ∃ b, ran s (receive s t q) = .next b ∧ MbxDone s t q secure c st code 0 b :=
  ⟨_, ran_write ha ho (by rw [hg]; exact orderOf_mbx _ _ _) ((regWrite_mbx hg h40 hnotify).trans hw) (mbxAnswer_delay _ _ _ _ _)
    (mbxAnswer_runs ha hst), mbxDone_accessed (w := 0) hc hst⟩

/-- An accepted read of a mailbox page does what its register's rule says. -/
theorem mbx_read_accepted {s st : State} {t : Nat} {q : CPacket} {secure : Bool} {c : MbxCh} {w : Word} (ha : accepted s t q = true)
    (ho : hOpcode q.head = 0x30) (hg : rPage q.head = mbxPage secure) (h40 : 0x040 ≤ rOfs q.head)
    (hr : readMbx (atStage12 s t q) q.head secure = mbxAnswer st secure (hSrc q.head) ok w) (hst : ChannelIs (atStage12 s t q) secure c st) :
    ∃ b, ran s (receive s t q) = .next b ∧ MbxDone s t q secure c st ok w.toNat b := by
  have hv : viewWaits (atStage12 s t q) q.head = false := by cases secure <;> simp [viewWaits, hg, mbxPage]
  exact ⟨_, ran_read ha ho hv ((regRead_mbx hg h40).trans hr) (mbxAnswer_delay _ _ _ _ _) (mbxAnswer_runs ha hst),
    mbxDone_accessed (show ok < 16 by decide) hst⟩

/-! ### Register rows of the mailbox pages -/

theorem mbxPage_lt (secure : Bool) : mbxPage secure < 32 := by cases secure <;> decide

/-- A register row keeps the header's fields between the opcode and the address: its source and its ring among them. -/
theorem fld_readOf (p : CPacket) (g o hi lo : Nat) (hlo : 6 < lo) (hhi : hi < 96) : fld (readOf p g o).head hi lo = fld p.head hi lo := by
  unfold readOf
  rw [withHead_head, fld_setFld_other _ _ _ _ _ _ (by decide) (by decide) (.inl hhi),
    fld_setFld_other _ _ _ _ _ _ (by decide) (by decide) (.inr hlo)]
theorem fld_writeOf (p : CPacket) (g o hi lo : Nat) (hlo : 6 < lo) (hhi : hi < 96) : fld (writeOf p g o).head hi lo = fld p.head hi lo := by
  unfold writeOf
  rw [withHead_head, fld_setFld_other _ _ _ _ _ _ (by decide) (by decide) (.inl hhi),
    fld_setFld_other _ _ _ _ _ _ (by decide) (by decide) (.inr hlo)]
theorem hSrc_readOf (p : CPacket) (g o : Nat) : hSrc (readOf p g o).head = hSrc p.head := by
  simp [hSrc, hSrcType, hSrcId, hSrcChip, fld_readOf]
theorem hSrc_writeOf (p : CPacket) (g o : Nat) : hSrc (writeOf p g o).head = hSrc p.head := by
  simp [hSrc, hSrcType, hSrcId, hSrcChip, fld_writeOf]
theorem fld_head_actOf (p : CPacket) (g o : Nat) (on off : List Nat) (hi lo : Nat) (hon : ∀ b ∈ on, b < 32) (hoff : ∀ b ∈ off, b < 32)
    (hlo : 6 < lo) (hhi : hi < 96) : fld (actOf p g o on off).head hi lo = fld p.head hi lo := by
  unfold actOf
  rw [fld_withBits _ _ _ _ _ hon hoff (by omega), fld_writeOf _ _ _ _ _ hlo hhi]

/-! ### IN_ABORT and LOCK -/

/-- An accepted IN_ABORT is answered as its rule says. -/
theorem inAbort_accepted {s st : State} {t : Nat} {p : CPacket} {secure : Bool} {c : MbxCh} {code : Nat}
    (ha : accepted s t (actOf p (mbxPage secure) 0x060 [1] [0]) = true)
    (hr : mbxInAbort (atStage12 s t (actOf p (mbxPage secure) 0x060 [1] [0])) secure (hSrc p.head) (hRing p.head) = (st, code)) (hc : code < 16)
    (hst : ChannelIs (atStage12 s t (actOf p (mbxPage secure) 0x060 [1] [0])) secure c st) :
    ∃ b, exec (.inAbort t p secure) s = .next b ∧ MbxDone s t (actOf p (mbxPage secure) 0x060 [1] [0]) secure c st code 0 b := by
  obtain ⟨ho, hg, hofs⟩ := actOf_names p (mbxPage secure) 0x060 [1] [0] (by decide) (by decide) (mbxPage_lt secure) (by decide)
  have hfld : ∀ hi lo, 6 < lo → hi < 96 → fld (actOf p (mbxPage secure) 0x060 [1] [0]).head hi lo = fld p.head hi lo :=
    fun hi lo => fld_head_actOf p _ _ [1] [0] hi lo (by decide) (by decide)
  have hsrc : hSrc (actOf p (mbxPage secure) 0x060 [1] [0]).head = hSrc p.head := by simp [hSrc, hSrcType, hSrcId, hSrcChip, hfld]
  have hring : hRing (actOf p (mbxPage secure) 0x060 [1] [0]).head = hRing p.head := by simp [hRing, hfld]
  have h1 : bit (hData (actOf p (mbxPage secure) 0x060 [1] [0]).head) 1 = true := bit_actOf p _ _ [1] [0] 1 (by decide) (by decide) (by decide)
  have h0 : bit (hData (actOf p (mbxPage secure) 0x060 [1] [0]).head) 0 = false := bit_actOf p _ _ [1] [0] 0 (by decide) (by decide) (by decide)
  refine mbx_write_accepted ha ho hg (by omega) (by omega) ?_ hc hst
  rw [mbxWrite_ack hofs, mbxAckWrite_inAbort h1 h0, hring, hsrc, hr]

/-- An accepted read of LOCK is answered as its rule says. -/
theorem lockRead_accepted {s st : State} {t : Nat} {p : CPacket} {secure : Bool} {c : MbxCh} {w : Word}
    (ha : accepted s t (readOf p (mbxPage secure) 0x04C) = true)
    (hr : mbxLockRead (atStage12 s t (readOf p (mbxPage secure) 0x04C)) secure (hSrc p.head) = (st, w))
    (hst : ChannelIs (atStage12 s t (readOf p (mbxPage secure) 0x04C)) secure c st) :
    ∃ b, exec (.lockRead t p secure) s = .next b ∧ MbxDone s t (readOf p (mbxPage secure) 0x04C) secure c st ok w.toNat b := by
  have hofs := rOfs_readOf p (mbxPage secure) 0x04C (by decide)
  refine mbx_read_accepted ha (hOpcode_readOf _ _ _) (rPage_readOf _ _ _ (mbxPage_lt secure) (by decide)) (by omega) ?_ hst
  rw [readMbx_lock hofs, hSrc_readOf, hr]

/-- An accepted write of LOCK is answered `OK`, and does what its rule says. -/
theorem lockWrite_accepted {s st : State} {t : Nat} {p : CPacket} {secure : Bool} {c : MbxCh}
    (ha : accepted s t (writeOf p (mbxPage secure) 0x04C) = true)
    (hr : mbxLockWrite (atStage12 s t (writeOf p (mbxPage secure) 0x04C)) secure (hSrc p.head) = st)
    (hst : ChannelIs (atStage12 s t (writeOf p (mbxPage secure) 0x04C)) secure c st) :
    ∃ b, exec (.lockWrite t p secure) s = .next b ∧ MbxDone s t (writeOf p (mbxPage secure) 0x04C) secure c st ok 0 b := by
  have hofs := rOfs_writeOf p (mbxPage secure) 0x04C (by decide)
  refine mbx_write_accepted ha (hOpcode_writeOf _ _ _) (rPage_writeOf _ _ _ (mbxPage_lt secure) (by decide)) (by omega) (by omega) ?_
    (show ok < 16 by decide) hst
  rw [mbxWrite_lock hofs, hSrc_writeOf, hr]

/-- The channel after an access is `c` with the lock it then has. -/
theorem MbxDone.channel_lock {s st b : State} {t : Nat} {q : CPacket} {secure : Bool} {c : MbxCh} {code param : Nat}
    (h : MbxDone s t q secure c st code param b) : mbx b secure = { c with lock := (mbx b secure).lock } := by
  rw [h.channel]

theorem MbxDone.answered_ok {s st b : State} {t : Nat} {q : CPacket} {secure : Bool} {c : MbxCh} {param : Nat}
    (h : MbxDone s t q secure c st ok param b) : Answered b q ok param (max s.now t + 9) := h.answered
theorem MbxDone.answered_refused {s st b : State} {t : Nat} {q : CPacket} {secure : Bool} {c : MbxCh} {code param : Nat}
    (h : MbxDone s t q secure c st code param b) (hc : code ≠ ok) : Answered b q code param (max s.now t + 8) := by
  simpa only [if_neg hc] using h.answered

/-- Settles O40: IN_ABORT by whether a partial message stands and whose it is, LOCK by its mode and its owner. -/
theorem abortsAndLocks : Obligations.AbortsAndLocks := by
  unfold Obligations.AbortsAndLocks
  refine fun s t p secure => ⟨?inAbort, ?lockRead, ?lockWrite⟩
  case inAbort =>
    intro q a ha
    cases hpart : (mbx a secure).inPart with
    | none =>
      obtain ⟨b, hb, hdone⟩ := inAbort_accepted ha (mbxInAbort_none hpart _ _) (by decide) (channelIs_self a secure)
      exact ⟨b, hb, by simpa only [hpart] using And.intro hdone.answered_ok hdone.channel_lock⟩
    | some m =>
      by_cases hmay : m.src = hSrc p.head ∨ hRing p.head = 0
      · obtain ⟨b, hb, hdone⟩ := inAbort_accepted ha ((mbxInAbort_some hpart _ _).trans (if_pos hmay)) (by decide)
          (channelIs_mbxDiscard a secure)
        have hfree : inFree (mbx b secure) = 8 - ((mbx a secure).inMsgs.map fun m => m.words.length).sum := by
          rw [hdone.channel, inFree_of_no_part rfl]
        have hlogged : b.rb (rk (mbxPage secure) 0x010) 3 = true := by rw [State.rb, hdone.regs]; exact rb_mbxDiscard hpart
        refine ⟨b, hb, ?_⟩
        simp only [hpart, if_pos hmay]
        exact ⟨hdone.answered_ok, hdone.channel_lock, hfree, hlogged⟩
      · obtain ⟨b, hb, hdone⟩ := inAbort_accepted ha ((mbxInAbort_some hpart _ _).trans (if_neg hmay)) (by decide) (channelIs_self a secure)
        exact ⟨b, hb, by simpa only [hpart, if_neg hmay] using And.intro (hdone.answered_refused (by decide)) hdone.channel_lock⟩
  case lockRead =>
    intro q a me ha
    have hsrc : hSrc q.head = hSrc p.head := hSrc_readOf _ _ _
    cases hmode : mbxLocked a secure with
    | false =>
      obtain ⟨b, hb, hdone⟩ := lockRead_accepted ha (mbxLockRead_unlocked hmode _) (channelIs_self a secure)
      exact ⟨b, hb, hdone.answered⟩
    | true =>
      cases hlock : (mbx a secure).lock with
      | none =>
        obtain ⟨b, hb, hdone⟩ := lockRead_accepted ha (mbxLockRead_free hmode hlock _) (channelIs_setMbx a secure _)
        refine ⟨b, hb, hdone.answered, ?_⟩
        rw [hdone.channel, lockTouched_some rfl, if_pos (congrArg ownerNum hsrc.symm)]
      | some l =>
        obtain ⟨o, n⟩ := l
        obtain ⟨b, hb, hdone⟩ := lockRead_accepted ha (mbxLockRead_owned hmode hlock _) (channelIs_self a secure)
        refine ⟨b, hb, ?_, ?_⟩
        · have hans := hdone.answered
          rw [apply_ite BitVec.toNat, BitVec.toNat_ofNat] at hans
          exact hans
        · rw [hdone.channel, lockTouched_some hlock, hsrc]
  case lockWrite =>
    intro q a ha
    have hsrc : hSrc q.head = hSrc p.head := hSrc_writeOf _ _ _
    cases hmode : mbxLocked a secure with
    | false =>
      obtain ⟨b, hb, hdone⟩ := lockWrite_accepted ha (mbxLockWrite_unlocked hmode _) (channelIs_self a secure)
      exact ⟨b, hb, hdone.answered, fun k _ => hdone.regs k⟩
    | true =>
      cases howner : ownsLock (mbx a secure) (hSrc p.head) with
      | true =>
        obtain ⟨c, hfree, hc⟩ := channelIs_mbxRelease a secure
        obtain ⟨b, hb, hdone⟩ := lockWrite_accepted ha (mbxLockWrite_owner hmode howner) hc
        refine ⟨b, hb, hdone.answered, ?_⟩
        rw [hdone.channel]
        exact (lockTouched_of_not_owner (ownsLock_none hfree _) _).trans hfree
      | false =>
        obtain ⟨b, hb, hdone⟩ := lockWrite_accepted ha (mbxLockWrite_foreign hmode howner) (channelIs_logErr a secure _ _ _)
        refine ⟨b, hb, hdone.answered, ?_, ?_⟩
        · rw [hdone.channel, lockTouched_of_not_owner (by rw [hsrc]; exact howner)]
        · rw [State.rb, hdone.regs]; exact rb_logErr_mbx_sticky _ _ _ _ (by decide)

end Sys2Proof.Machine
end
